-- ==== Sys2Proof/Word.lean ====
section
/-!
DEFINITION. The bit-vector words the spec names: a byte, a 32-bit register value, a 14-bit channel symbol and a
12-bit register address.
-/

namespace Sys2Proof

/-- A byte, bit 7 the most significant (R13). -/
abbrev Byte := BitVec 8

/-- The value of a 32-bit register, or a stored 32-bit section time (R11, R170). -/
abbrev Word := BitVec 32

/-- A 14-bit channel symbol whose bit 13 is the first channel bit in time (R13). -/
abbrev Symbol := BitVec 14

/-- A byte address of the host register block, 0x000 to 0xFFF (R100). -/
abbrev Addr := BitVec 12

end Sys2Proof
end

