-- ==== Sys2Proof/Machine/Constants.lean ====
section
/-!
DEFINITION. The parameters of R9 whose value the spec fixes, under the names of its table.
-/

namespace Sys2Proof.Machine

/-- `TV_SYNC_TOKEN` (R132). -/
abbrev tvSyncToken : Byte := 0x0B#8
/-- `TV_FRAME_BITS` (R203). -/
abbrev tvFrameBits : Nat := 588
/-- `TV_ACCEPT_MIN` (R207). -/
abbrev tvAcceptMin : Nat := 551
/-- `TV_ACCEPT_MAX` (R207). -/
abbrev tvAcceptMax : Nat := 599
/-- `TV_SPLIT_TOL`, in bits (R209). -/
abbrev tvSplitTol : Nat := 11
/-- `TV_SYNC_SEARCH_LIMIT`, in bits (R207, D8). -/
abbrev tvSyncSearchLimit : Nat := 1187
/-- `F3_SECTION_FRAMES` (R284). -/
abbrev f3SectionFrames : Nat := 98
/-- `F3_MAX_SHORTFALL`, in frames (R284). -/
abbrev f3MaxShortfall : Nat := 4
/-- `F3_PAD_OFFSET` (R287). -/
abbrev f3PadOffset : Nat := 4
/-- `F3_PAD_STRIDE` (R287, D15). -/
abbrev f3PadStride : Nat := 2
/-- `F3_BAD_SYNC_LIMIT` (R291). -/
abbrev f3BadSyncLimit : Nat := 3
/-- `F3_ACCUM_LIMIT`, in frames (R283, D18). -/
abbrev f3AccumLimit : Nat := 392
/-- `SUB_JUMP_LIMIT`, in sections (R294, C11). -/
abbrev subJumpLimit : Int := 10
/-- `Q_CRC_POLY` (R473). -/
abbrev qCrcPoly : BitVec 16 := 0x1021#16
/-- `F2C_SETTLE_COUNT`, in sections (R335). -/
abbrev f2cSettleCount : Nat := 5
/-- The reset value of `F2C_WATERMARK` (R34). -/
abbrev watermarkReset : BitVec 16 := 5#16
/-- `F2C_PENDING_LIMIT`, in sections (R336, D37). -/
abbrev f2cPendingLimit : Nat := 75

/-- `DL1_LEN`: 0 for even positions, 1 for odd ones (R71, D40). -/
def dl1Len (p : Fin 32) : Nat := p.val % 2
/-- `DLM_LEN`: 108, 104, ..., 4, 0 (R71, C2). -/
def dlMLen (p : Fin 28) : Nat := 108 - 4 * p.val
/-- `DL2_LEN`: 0, 0, 0, 0, 2, 2, 2, 2 repeating (R9, the table of R71, R403). R71 also says that DL2 holds 12 cells, "sums of
the lengths"; these lengths sum to 24, and the model follows the lengths (DESIGN CHOICE, unsafe, entry 18). -/
def dl2Len (o : Fin 24) : Nat := if o.val % 8 < 4 then 0 else 2
/-- The longest line of `DL1`, `DLM` and `DL2` (R393). -/
abbrev dl1Max : Nat := 1
@[inherit_doc dl1Max] abbrev dlMMax : Nat := 108
@[inherit_doc dl1Max] abbrev dl2Max : Nat := 2

end Sys2Proof.Machine
end

