-- ==== Sys2Proof/Syntax.lean ====
section
/-!
DEFINITION. What stands at the block's ports (`PortItem`) and the instructions of the opcode table (`Instr`), one
constructor for each row of spec/opcode_table.json.
-/

namespace Sys2Proof

/-- One item the host presents at a port. The port tells the formats apart (R181). -/
inductive PortItem where
  /-- A token byte on the input stream (format tv8, R130). -/
  | token (t : Byte)
  /-- A 14-bit channel symbol at the input of stage 2 (format efm14, R180). -/
  | symbol (v : Symbol)
  /-- `MemWrite(addr, width, v)` on the register block (format host, R533); `width` in bytes. -/
  | memWrite (width : Nat) (addr : Addr) (v : Word)
  /-- `MemRead(addr, width)` on the register block (format host, R532); `width` in bytes. -/
  | memRead (width : Nat) (addr : Addr)
  /-- A read of the output stream `f2_out` (R536). -/
  | popF2
  /-- A read of the output stream `d24_out` (R537). -/
  | popD24
  deriving DecidableEq, Repr

/-- The rows of the opcode table (R180). -/
inductive Instr where
  /-- `T3`: the token 0x03. -/
  | t3
  /-- `T4`: the token 0x04. -/
  | t4
  /-- `T5`: the token 0x05. -/
  | t5
  /-- `T6`: the token 0x06. -/
  | t6
  /-- `T7`: the token 0x07. -/
  | t7
  /-- `T8`: the token 0x08. -/
  | t8
  /-- `T9`: the token 0x09. -/
  | t9
  /-- `T10`: the token 0x0A. -/
  | t10
  /-- `T11`: the token 0x0B. -/
  | t11
  /-- `TV_ZERO`: the token 0x00 (R131). -/
  | tvZero
  /-- `TV_SHORT`: the token 0x01 or 0x02, `t` its bits 1..0 (R131). -/
  | tvShort (t : BitVec 2)
  /-- `TV_LONG`: a token 0x0C to 0xFF (R131). -/
  | tvLong (t : Byte)
  /-- `SYNC`: two consecutive tokens 0x0B (R132, R186). -/
  | sync
  /-- `SYM_SYNC0`: a symbol that EFM_DECODE maps to Sync0 (R251). -/
  | symSync0 (v : Symbol)
  /-- `SYM_SYNC1`: a symbol that EFM_DECODE maps to Sync1 (R251). -/
  | symSync1 (v : Symbol)
  /-- `SYM_DATA`: a symbol that EFM_DECODE maps to a byte (R254). -/
  | symData (v : Symbol)
  /-- `SYM_INVALID`: a symbol that EFM_DECODE maps to nothing (R254). -/
  | symInvalid (v : Symbol)
  /-- `PUSH_TV`: a write of `v` to TV_DATA (R530). -/
  | pushTv (v : Word)
  /-- `FLUSH`: a write to CTRL with bit 0 set and bit 1 clear; `hi` its ignored bits 31..2 (R534). -/
  | flush (hi : BitVec 30)
  /-- `RESET`: a write to CTRL with bit 1 set; `hi` its ignored bits 31..2, `bit0` its bit 0 (R535, R538). -/
  | reset (hi : BitVec 30) (bit0 : Bool)
  /-- `REG_READ`: a read of the register at `addr` (R532). -/
  | regRead (addr : Addr)
  /-- `REG_WRITE`: a write of `v` to the register at `addr` (R533). -/
  | regWrite (addr : Addr) (v : Word)
  /-- `POP_F2`: take one record from `f2_out` (R536). -/
  | popF2
  /-- `POP_D24`: take one record from `d24_out` (R537). -/
  | popD24
  deriving DecidableEq, Repr

end Sys2Proof
end

