-- ==== Sys2Proof/Machine/State.lean ====
section
/-!
DEFINITION. The units of data, the state of every stage, the whole machine's State as plain data, the reasons a step
can stop, and the state after reset.
-/

namespace Sys2Proof.Machine

/-! ### Units of data (R140 to R160) -/

/-- One byte position of a frame: the byte and its two flags (R76). -/
structure Cell where
  data : Byte
  error : Bool
  padded : Bool
  deriving DecidableEq, Repr

/-- The cell `(0x00, false, false)` (R72, R404). -/
abbrev Cell.zero : Cell := ⟨0x00#8, false, false⟩

/-- The channel bits of a frame, the first in time first (R135). -/
abbrev ChannelFrame := List Bool

/-- The type of an F3 frame (R140). -/
inductive FrameType where
  | sync0
  | sync1
  | subcode (b : Byte)
  deriving DecidableEq, Repr

/-- An F3 frame: 32 bytes with flags, the type and the subcode error bit (R140). -/
structure F3Frame where
  cells : Vector Cell 32
  type : FrameType
  subcodeError : Bool
  deriving DecidableEq, Repr

/-- An F2 frame: the 32 cells of an F3 frame (R141). -/
abbrev F2Frame := Vector Cell 32

/-- An F1 frame: 24 corrected cells (R142). A Data24 frame has the same shape (R143). -/
abbrev F1Frame := Vector Cell 24

/-- `section_type` (R160). -/
inductive SectionType where
  | leadIn
  | leadOut
  | userData
  deriving DecidableEq, Repr

/-- `q_mode`: 0 for none, 1, 2 or 4; mode 3 reaches no record (R160, C9). -/
inductive QMode where
  | none
  | mode1
  | mode2
  | mode4
  deriving DecidableEq, Repr

/-- A section metadata record (R160). Section times are 32-bit two's complement (R11). -/
structure SectionMeta where
  sectionType : SectionType
  qMode : QMode
  trackNumber : Byte
  relativeTime : Word
  absoluteTime : Word
  catalogue : BitVec 52
  pFlag : Bool
  isValid : Bool
  isRepaired : Bool
  isAudio : Bool
  isCopyPermitted : Bool
  hasPreemphasis : Bool
  is4Channel : Bool
  deriving DecidableEq, Repr

/-- An F2 section: 98 F2 frames and the metadata (R141). -/
structure F2Section where
  frames : List F2Frame
  info : SectionMeta
  deriving DecidableEq, Repr

/-- An F1 section, or a Data24 section, which has the same shape (R142, R143). -/
structure F1Section where
  frames : List F1Frame
  info : SectionMeta
  deriving DecidableEq, Repr

/-! ### The counters (R80, R175) -/

/-- The 45 statistics counters; a docstring gives the address and what R175 says increments it. -/
inductive Counter where
  /-- `tv_tokens_in`, 0x100: each token taken, rule R200. -/
  | tvTokensIn
  /-- `tv_tokens_discarded`, 0x104: each token discarded, rules R200, R206, R209, R211, R212, R213, R215. -/
  | tvTokensDiscarded
  /-- `tv_tokens_out_of_range`, 0x108: each token outside 3..11, rule R200. -/
  | tvTokensOutOfRange
  /-- `tv_frames_exact`, 0x10C: each frame of span exactly 588, rule R208. -/
  | tvFramesExact
  /-- `tv_frames_tolerated`, 0x110: each frame of span in [551,599] other than 588, rule R208. -/
  | tvFramesTolerated
  /-- `tv_frames_split`, 0x114: each frame produced by a split, rule R209. -/
  | tvFramesSplit
  /-- `tv_undershoot_fixups`, 0x118: each merged short span, rule R211. -/
  | tvUndershootFixups
  /-- `tv_undershoots`, 0x11C: each short span discarded, rules R211, R213, R215. -/
  | tvUndershoots
  /-- `tv_overshoot_discards`, 0x120: each long span discarded, rule R209. -/
  | tvOvershootDiscards
  /-- `tv_lost_sync`, 0x124: each drop to initial sync, rule R212. -/
  | tvLostSync
  /-- `efm_data_symbol_errors`, 0x128: each present data symbol that is not a data byte, rule R254. -/
  | efmDataSymbolErrors
  /-- `efm_subcode_errors`, 0x12C: each invalid subcode symbol, rule R251. -/
  | efmSubcodeErrors
  /-- `efm_missing_symbols`, 0x130: each absent data symbol, rule R255. -/
  | efmMissingSymbols
  /-- `f3_frames_in`, 0x134: each F3 frame taken, rule R280. -/
  | f3FramesIn
  /-- `f3_frames_discarded`, 0x138: each F3 frame discarded, rules R281, R283, R290, R292, R297. -/
  | f3FramesDiscarded
  /-- `f3_sections_exact`, 0x13C: each boundary of exactly 98 frames, rule R285. -/
  | f3SectionsExact
  /-- `f3_sections_padded`, 0x140: each section padded, rule R287. -/
  | f3SectionsPadded
  /-- `f3_frames_inserted`, 0x144: each error frame inserted, rule R287. -/
  | f3FramesInserted
  /-- `f3_boundaries_discarded`, 0x148: each boundary ignored as noise, rule R286. -/
  | f3BoundariesDiscarded
  /-- `f3_sections_split`, 0x14C: each section produced by a split, rule R289. -/
  | f3SectionsSplit
  /-- `f3_overshoot_trims`, 0x150: each overshoot trimmed to 98, rule R290. -/
  | f3OvershootTrims
  /-- `f3_lost_sync`, 0x154: each drop to initial sync, rules R283, R292. -/
  | f3LostSync
  /-- `q_crc_ok`, 0x158: each Q channel whose CRC matched as received, rule R474. -/
  | qCrcOk
  /-- `q_repaired`, 0x15C: each Q channel repaired by one bit flip, rule R475. -/
  | qRepaired
  /-- `q_crc_fail`, 0x160: each Q channel left with a CRC mismatch, rule R475. -/
  | qCrcFail
  /-- `q_rejected`, 0x164: each CRC-good Q channel rejected by mode or BCD, rules R480, R481. -/
  | qRejected
  /-- `q_jump_invalidated`, 0x168: each repaired section invalidated by the jump check, rule R294. -/
  | qJumpInvalidated
  /-- `f2c_sections_in`, 0x16C: each section taken by stage 4, rule R330. -/
  | f2cSectionsIn
  /-- `f2c_settle_discards`, 0x170: each section discarded in the settle phase, rules R332, R333, R334, R348. -/
  | f2cSettleDiscards
  /-- `f2c_out_of_order_drops`, 0x174: each out-of-order section dropped, rule R341. -/
  | f2cOutOfOrderDrops
  /-- `f2c_interpolated`, 0x178: each invalid section repaired by interpolation, rule R339. -/
  | f2cInterpolated
  /-- `f2c_gap_error_sections`, 0x17C: each error-flagged section synthesized, rule R344. -/
  | f2cGapErrorSections
  /-- `f2c_gap_padding_sections`, 0x180: each padding section synthesized, rule R344. -/
  | f2cGapPaddingSections
  /-- `f2c_unrepaired_emitted`, 0x184: each invalid section emitted without repair, rules R336, R348. -/
  | f2cUnrepairedEmitted
  /-- `f2c_sections_out`, 0x188: each section stage 4 emits, rule R331. -/
  | f2cSectionsOut
  /-- `circ_frames_in`, 0x18C: each F2 frame taken by stage 5, rule R390. -/
  | circFramesIn
  /-- `circ_lost_frames`, 0x190: each placeholder frame, rule R404. -/
  | circLostFrames
  /-- `c1_ok`, 0x194: each C1 decode returning `Ok`, rule R397. -/
  | c1Ok
  /-- `c1_fail`, 0x198: each C1 decode returning `Fail`, rule R397. -/
  | c1Fail
  /-- `c2_ok`, 0x19C: each C2 decode returning `Ok`, rule R400. -/
  | c2Ok
  /-- `c2_fail`, 0x1A0: each C2 decode returning `Fail`, rule R400. -/
  | c2Fail
  /-- `d24_frames_out`, 0x1A4: each Data24 frame emitted, rule R454. -/
  | d24FramesOut
  /-- `d24_error_bytes`, 0x1A8: each Data24 byte with its error flag set, rule R453. -/
  | d24ErrorBytes
  /-- `d24_padded_bytes`, 0x1AC: each Data24 byte with its padded flag set, rule R453. -/
  | d24PaddedBytes
  /-- `host_tokens_rejected`, 0x1B0: each token written while `FATAL = 1`, rule R531. -/
  | hostTokensRejected
  deriving DecidableEq, Repr

/-- The number `k` of a counter in R175. -/
def Counter.index : Counter → Fin 45
  | .tvTokensIn => 0
  | .tvTokensDiscarded => 1
  | .tvTokensOutOfRange => 2
  | .tvFramesExact => 3
  | .tvFramesTolerated => 4
  | .tvFramesSplit => 5
  | .tvUndershootFixups => 6
  | .tvUndershoots => 7
  | .tvOvershootDiscards => 8
  | .tvLostSync => 9
  | .efmDataSymbolErrors => 10
  | .efmSubcodeErrors => 11
  | .efmMissingSymbols => 12
  | .f3FramesIn => 13
  | .f3FramesDiscarded => 14
  | .f3SectionsExact => 15
  | .f3SectionsPadded => 16
  | .f3FramesInserted => 17
  | .f3BoundariesDiscarded => 18
  | .f3SectionsSplit => 19
  | .f3OvershootTrims => 20
  | .f3LostSync => 21
  | .qCrcOk => 22
  | .qRepaired => 23
  | .qCrcFail => 24
  | .qRejected => 25
  | .qJumpInvalidated => 26
  | .f2cSectionsIn => 27
  | .f2cSettleDiscards => 28
  | .f2cOutOfOrderDrops => 29
  | .f2cInterpolated => 30
  | .f2cGapErrorSections => 31
  | .f2cGapPaddingSections => 32
  | .f2cUnrepairedEmitted => 33
  | .f2cSectionsOut => 34
  | .circFramesIn => 35
  | .circLostFrames => 36
  | .c1Ok => 37
  | .c1Fail => 38
  | .c2Ok => 39
  | .c2Fail => 40
  | .d24FramesOut => 41
  | .d24ErrorBytes => 42
  | .d24PaddedBytes => 43
  | .hostTokensRejected => 44

/-- The 45 counters, each 32 bits (R80). -/
abbrev Counters := Vector Word 45

/-! ### The stages' states -/

/-- `tv_state` (R41). -/
inductive TvState where
  | expectingInitialSync
  | expectingSync
  | handleUndershoot
  | handleOvershoot
  deriving DecidableEq, Repr

/-- Stage 1: `tv_buf`, `tv_state`, `tv_und_j` (R40 to R42). -/
structure Stage1 where
  buf : List Byte
  state : TvState
  undJ : Nat
  deriving DecidableEq, Repr

/-- The frame stage 2 is filling when it is driven symbol by symbol: what R250's `f` holds so far. The model's own
field (entry 5). -/
structure PartialFrame where
  type : FrameType
  subcodeError : Bool
  cells : List Cell
  deriving DecidableEq, Repr

/-- `f3_state` (R50). -/
inductive F3State where
  | expectingInitialSync
  | expectingSync
  deriving DecidableEq, Repr

/-- Stage 3: `f3_state`, `f3_acc`, `f3_prev`, `f3_bad`, `s3_last_abs` (R50 to R54). -/
structure Stage3 where
  state : F3State
  acc : List F3Frame
  prev : Option F3Frame
  bad : Nat
  lastAbs : Option Word
  deriving DecidableEq, Repr

/-- `f2c_phase` (R60). -/
inductive F2cPhase where
  | settle
  | steady
  deriving DecidableEq, Repr

/-- Stage 4: `f2c_phase`, `f2c_settle`, `f2c_last`, `f2c_pending`, `f2c_dist` (R60 to R64). -/
structure Stage4 where
  phase : F2cPhase
  settle : List F2Section
  last : Option SectionMeta
  pending : List F2Section
  dist : Word
  deriving DecidableEq, Repr

/-- A delay-line set of `n` lines, each a FIFO of cells whose head is the oldest, and its push counter (R70). -/
structure DelaySet (n : Nat) where
  lines : Vector (List Cell) n
  count : Nat
  deriving DecidableEq, Repr

/-- A delay-line set at reset and after a flush: zero cells, `count = 0` (R72, R406). -/
def DelaySet.fresh (n : Nat) (len : Fin n → Nat) : DelaySet n where
  lines := Vector.ofFn fun p => List.replicate (len p) Cell.zero
  count := 0

/-- Stage 5: the three delay-line sets (R71). -/
structure Stage5 where
  dl1 : DelaySet 32
  dlM : DelaySet 28
  dl2 : DelaySet 24
  deriving DecidableEq, Repr

/-! ### The fatal halt and the reply -/

/-- `FATAL_CAUSE`; the codes 4..15 are never raised (R572). -/
inductive FatalCause where
  | none
  | uncorrectableGap
  | unsupportedQMode3
  | gapTooLarge
  deriving DecidableEq, Repr

/-- The arguments of `raise Fatal(cause, expected, actual)` (R575). -/
structure FatalInfo where
  cause : FatalCause
  expected : Word
  actual : Word
  deriving DecidableEq, Repr

/-- How one unit leaves a stage: with new stage state and an output, or by raising the fatal halt, the stage state
being what was written before the raise (R575). -/
inductive Flow (σ α : Type) where
  | ok (st : σ) (out : α)
  | fatal (st : σ) (info : FatalInfo)
  deriving DecidableEq, Repr

/-- What a register read or a pop returned last (R532, R536, R537). The model's own field (entry 6). -/
inductive Reply where
  /-- Nothing has been returned since reset. -/
  | none
  /-- The value of a register read. -/
  | word (v : Word)
  /-- A pop of an empty queue. -/
  | empty
  /-- The bytes of a popped record. -/
  | record (bytes : List Byte)
  deriving DecidableEq, Repr

/-! ### The machine -/

/-- The architectural state (10_state.md), and last the three fields that are the model's own. -/
structure State where
  /-- `FATAL` (R33). -/
  fatal : Bool
  /-- `FATAL_CAUSE` (R33, R572). -/
  fatalCause : FatalCause
  /-- `FATAL_EXPECTED` (R33). -/
  fatalExpected : Word
  /-- `FATAL_ACTUAL` (R33). -/
  fatalActual : Word
  /-- `WATERMARK` (R34). -/
  watermark : BitVec 16
  /-- `f2_out` (R35). -/
  f2Out : List F2Section
  /-- `d24_out` (R35). -/
  d24Out : List F1Section
  /-- `tv_buf`, `tv_state`, `tv_und_j` (R40 to R42). -/
  tv : Stage1
  /-- `f3_state`, `f3_acc`, `f3_prev`, `f3_bad`, `s3_last_abs` (R50 to R54). -/
  f3 : Stage3
  /-- `f2c_phase`, `f2c_settle`, `f2c_last`, `f2c_pending`, `f2c_dist` (R60 to R64). -/
  f2c : Stage4
  /-- `DL1`, `DLM`, `DL2` (R70 to R73). -/
  circ : Stage5
  /-- `CNT[0]` to `CNT[44]` (R80, R175). -/
  cnt : Counters
  /-- The frame stage 2 is filling from single symbols, if any (entry 5). -/
  sym : Option PartialFrame
  /-- What the host's last read or pop returned (entry 6). -/
  reply : Reply
  /-- The host's actions not taken yet, the next one first (entry 1). -/
  hostIn : List PortItem
  deriving DecidableEq, Repr

/-- No fault exists: the spec's one exception, the fatal halt, is a next state (R575), and no address or unit is
missing (entry 16). -/
inductive Fault
  deriving DecidableEq, Repr

/-- Why a host action is refused. -/
inductive Refusal where
  /-- Raised by `exec` for an instruction without a meaning yet; safe (the run stops). -/
  | notModelled (mnemonic : String)
  /-- Raised by `exec` (REG_READ, REG_WRITE) and by `step` for a register access at an address that is not a multiple
  of 4: "The model refuses the host action" (R102); safe. -/
  | unalignedAccess (addr : Addr)
  /-- Raised by `step` for a register access that is not 4 bytes wide (R102); safe. -/
  | accessWidth (width : Nat)
  deriving DecidableEq, Repr

/-- The machine right after reset (R85, R610); the last three fields are the model's own (entry 14). -/
def State.reset : State where
  fatal := false
  fatalCause := .none
  fatalExpected := 0
  fatalActual := 0
  watermark := watermarkReset
  f2Out := []
  d24Out := []
  tv := ⟨[], .expectingInitialSync, 0⟩
  f3 := ⟨.expectingInitialSync, [], none, 0, none⟩
  f2c := ⟨.settle, [], none, [], 0⟩
  circ := ⟨DelaySet.fresh 32 dl1Len, DelaySet.fresh 28 dlMLen, DelaySet.fresh 24 dl2Len⟩
  cnt := Vector.replicate 45 0
  sym := none
  reply := .none
  hostIn := []

end Sys2Proof.Machine
end

