-- ==== Sys2Proof/Machine/Flags.lean ====
section
/-!
DEFINITION. The flag computations: the P flag and the control flags of a section, the byte flags a Reed-Solomon pass
writes, and the fields of the STATUS and OUT_LEVEL registers.
-/

namespace Sys2Proof.Machine

/-! ### Metadata flags -/

/-- `pFlag`: a strict majority of bit 7 over `sub[2..98)` (R471). -/
def pFlagOf (sub : List Byte) : Bool :=
  decide (48 < ((sub.drop 2).take 96).countP fun b => b.getLsbD 7)

/-- The control flags of `q[0]` bits 7..4 (R152, R483). -/
def withControlFlags (q0 : Byte) (m : SectionMeta) : SectionMeta :=
  { m with
    is4Channel := q0.getLsbD 7
    isAudio := !q0.getLsbD 6
    isCopyPermitted := q0.getLsbD 5
    hasPreemphasis := q0.getLsbD 4 }

/-! ### Byte flags of a Reed-Solomon pass (R396, R399) -/

/-- The erasure set `E`: the positions whose error flag is set. -/
def erasures {n : Nat} (x : Vector Cell n) : Vector Bool n := x.map fun cl => cl.error

/-- The bytes of a codeword. -/
def cellBytes {n : Nat} (x : Vector Cell n) : Vector Byte n := x.map fun cl => cl.data

/-- What a decode writes back: on `Ok` the corrected bytes with every error flag clear, on `Fail` the received bytes
with every error flag set; padded flags are unchanged (R396, R399, D43). -/
def afterDecode {n : Nat} (r : Option (Vector Byte n)) (x : Vector Cell n) : Vector Cell n :=
  match r with
  | some cw => Vector.ofFn fun p => { x[p] with data := cw[p], error := false }
  | none => x.map fun cl => { cl with error := true }

/-! ### Register fields (R172, R174) -/

/-- The encoding of `tv_state` (R41). -/
def tvStateCode : TvState → BitVec 2
  | .expectingInitialSync => 0
  | .expectingSync => 1
  | .handleUndershoot => 2
  | .handleOvershoot => 3

/-- The encoding of `f3_state` (R50). -/
def f3StateCode : F3State → BitVec 1
  | .expectingInitialSync => 0
  | .expectingSync => 1

/-- The encoding of `f2c_phase` (R60). -/
def f2cPhaseCode : F2cPhase → BitVec 1
  | .settle => 0
  | .steady => 1

/-- The fatal cause codes (R572). -/
def fatalCauseCode : FatalCause → BitVec 4
  | .none => 0
  | .uncorrectableGap => 1
  | .unsupportedQMode3 => 2
  | .gapTooLarge => 3

/-- A set is ready when its count exceeds its longest line (R393). -/
def ready {n : Nat} (longest : Nat) (d : DelaySet n) : Bool := decide (longest < d.count)

/-- `CIRC_PRIMED` (R172). -/
def circPrimed (st : Stage5) : Bool := ready dl1Max st.dl1 && ready dlMMax st.dlM && ready dl2Max st.dl2

/-- STATUS, its fields from bit 31 down to bit 0 (R172). -/
def statusWord (s : State) : Word :=
  0#8 ++ BitVec.ofNat 8 s.f2c.pending.length ++ 0#1 ++ BitVec.ofBool (circPrimed s.circ) ++
    f2cPhaseCode s.f2c.phase ++ 0#2 ++ f3StateCode s.f3.state ++ tvStateCode s.tv.state ++
    fatalCauseCode s.fatalCause ++ 0#3 ++ BitVec.ofBool s.fatal

/-- OUT_LEVEL: the saturated lengths of `d24_out` (bits 31..16) and `f2_out` (bits 15..0) (R174). -/
def outLevelWord (s : State) : Word :=
  BitVec.ofNat 16 (min s.d24Out.length 0xFFFF) ++ BitVec.ofNat 16 (min s.f2Out.length 0xFFFF)

end Sys2Proof.Machine
end

