-- ==== Sys2Proof/Machine/Operands.lean ====
section
/-!
DEFINITION. The operand forms: the expansion of tokens to channel bits, the symbol at a channel-bit index, the bytes
of the Q channel, BCD fields, section times, and the big-endian bytes of a record field.
-/

namespace Sys2Proof.Machine

/-! ### Tokens and channel bits -/

/-- `expand(t)`: `1` followed by `t - 1` zeros (R201); a token 0 stands for no bit (R131). -/
def expand (t : Byte) : List Bool :=
  if t = 0 then [] else true :: List.replicate (t.toNat - 1) false

/-- `bits(s)` (R201). -/
def channelBits (ts : List Byte) : List Bool := ts.flatMap expand

/-- `sum(s)`, the sum of the token values (R201). -/
def tokenSum (ts : List Byte) : Nat := (ts.map BitVec.toNat).sum

/-- `sym(a)`: the 14-bit value at channel bits [a, a + 14), the first bit in time its bit 13 (R13, R250). -/
def symbolAt (cf : ChannelFrame) (a : Nat) : Symbol :=
  BitVec.ofNat 14 ((List.range 14).foldl (fun acc k => 2 * acc + (cf.getD (a + k) false).toNat) 0)

/-! ### The Q channel (R150, R472) -/

/-- The twelve bytes `q[0..12)`. -/
abbrev QChannel := Vector Byte 12

/-- The byte whose bits, bit 7 first, are `bit 0 .. bit 7`. -/
def byteOfBits (bit : Nat → Bool) : Byte :=
  BitVec.ofNat 8 ((List.range 8).foldl (fun acc k => 2 * acc + (bit k).toNat) 0)

/-- The bits of a byte, bit 7 first. -/
def byteBits (b : Byte) : List Bool := (List.range 8).map fun k => b.getLsbD (7 - k)

/-- `assembleQ` (R472): Q bit `i` is bit 6 of `sub[2 + i]` and goes to bit `7 - i mod 8` of byte `i div 8`. -/
def assembleQ (sub : List Byte) : QChannel :=
  Vector.ofFn fun k => byteOfBits fun j => (sub.getD (2 + (8 * k.val + j)) 0).getLsbD 6

/-- `q` with bit `i` flipped, bit `i` being bit `7 - i mod 8` of byte `i div 8` (R475). -/
def flipQBit (q : QChannel) (i : Fin 96) : QChannel :=
  q.set (i.val / 8) (q[i.val / 8] ^^^ (0x80#8 >>> (i.val % 8)))

/-! ### BCD and section times -/

/-- The value of a byte if it is valid BCD (R153). -/
def bcd (b : Byte) : Option Nat :=
  if b.toNat / 16 ≤ 9 ∧ b.toNat % 16 ≤ 9 then some (10 * (b.toNat / 16) + b.toNat % 16) else none

/-- Minutes, seconds and frames as a count of frames (R10). -/
def msfFrames (m s f : Nat) : Nat := (m * 60 + s) * 75 + f

/-- The minutes, seconds and frames of a count of frames (R10). -/
def framesMsf (t : Nat) : Nat × Nat × Nat := (t / 4500, t / 75 % 60, t % 75)

/-- The section time in three BCD bytes, if `timeOK` holds of them (R477). -/
def bcdTime (m s f : Byte) : Option Nat :=
  match bcd m, bcd s, bcd f with
  | some m, some s, some f => if s < 60 ∧ f < 75 then some (msfFrames m s f) else none
  | _, _, _ => none

/-! ### Bytes of a record field (R109, R165) -/

/-- The low `n` bytes of a value, most significant first. -/
def beBytes (n v : Nat) : List Byte := (List.range n).map fun k => BitVec.ofNat 8 (v / 256 ^ (n - 1 - k))

/-- A boolean as a byte 0 or 1. -/
def boolByte (b : Bool) : Byte := if b then 1 else 0

end Sys2Proof.Machine
end

