-- ==== Sys2Proof/Config.lean ====
section
/-!
DEFINITION. The configuration record of R9: the parameters the spec leaves OPEN (`Params`), their defaults where the
spec gives one, and the machine's own values of them, which have no body, so that nothing can be proved from a choice.
The values R9 fixes stand in Machine/Constants.lean.
-/

namespace Sys2Proof

/-- What EFM_DECODE gives for a 14-bit symbol (R138). -/
inductive EfmCode where
  /-- A data byte 0..255. -/
  | byte (b : Byte)
  /-- The sentinel 256. -/
  | sync0
  /-- The sentinel 257. -/
  | sync1
  /-- Not in the table. -/
  | invalid
  deriving DecidableEq, Repr

/-- The OPEN parameters of R9 (D10, D23, D38, D42, D44) and the two values the rules do not state (entry 10).
`none` of a codec is its `Fail` (R12); a set of erasure positions is the vector of its flags. -/
structure Params where
  /-- `EFM_DECODE` (R138). -/
  efmDecode : Symbol → EfmCode
  /-- `RS_C1`: a 32-byte codeword and its erasures (R12). -/
  rsC1 : Vector Byte 32 → Vector Bool 32 → Option (Vector Byte 32)
  /-- `RS_C2`: a 28-byte codeword and its erasures (R12, C3). -/
  rsC2 : Vector Byte 28 → Vector Bool 28 → Option (Vector Byte 28)
  /-- `Q_CRC_INIT` (R473). -/
  qCrcInit : BitVec 16
  /-- `DEINTERLEAVE` (R402). -/
  deinterleave : Fin 24 → Fin 24
  /-- `F2C_MAX_GAP`, `none` for unbounded (R343). -/
  maxGap : Option Nat
  /-- What a stored 32-bit section time becomes when the exact value does not fit (DESIGN CHOICE, entry 10). -/
  timeOverflow : Int → Word
  /-- What the 32-bit distance `f2c_dist` becomes when the exact value does not fit (DESIGN CHOICE, entry 10). -/
  distOverflow : Nat → Word

/-! ### Defaults the spec names for an OPEN parameter -/

/-- The default of `Q_CRC_INIT` (R9, D23). -/
def Config.qCrcInitDefault : BitVec 16 := 0x0000#16

/-- The default of `F2C_MAX_GAP`: none, unbounded (R9, D38). -/
def Config.maxGapDefault : Option Nat := none

/-- The default of `DEINTERLEAVE`: `8 * floor((o mod 6) / 2) + 2 * floor(o / 6) + (o mod 2)` (R402, D44). -/
def Config.deinterleaveDefault (o : Fin 24) : Fin 24 :=
  ⟨8 * ((o.val % 6) / 2) + 2 * (o.val / 6) + o.val % 2, by omega⟩

/-! ### The machine's own parameters -/

/-- The EFM table of the machine, as an arrangement of the 14-bit words: word `v` has the code of index
`efmIndex v` (0..255 the bytes, 256 Sync0, 257 Sync1, the rest invalid). Being a permutation gives R138's
properties: one word for each byte and each sentinel, 16126 invalid words. Entry 7. -/
opaque Config.efmIndex : Equiv.Perm Symbol

/-- The words that are codewords of C1, besides the all-zero word. Entry 8. -/
opaque Config.c1Member : Vector Byte 32 → Bool

/-- What the C1 decoder answers for a word that is no codeword. Entry 8. -/
opaque Config.c1Correct : Vector Byte 32 → Vector Bool 32 → Option (Vector Byte 32)

/-- The words that are codewords of C2, besides the all-zero word. Entry 8. -/
opaque Config.c2Member : Vector Byte 28 → Bool

/-- What the C2 decoder answers for a word that is no codeword. Entry 8. -/
opaque Config.c2Correct : Vector Byte 28 → Vector Bool 28 → Option (Vector Byte 28)

/-- The machine's `Q_CRC_INIT`. Entry 9. -/
opaque Config.qCrcInit : BitVec 16

/-- The machine's `DEINTERLEAVE`, a permutation of 0..23 (R402). Entry 9. -/
opaque Config.deinterleave : Equiv.Perm (Fin 24)

/-- The machine's `F2C_MAX_GAP`. Entry 9. -/
opaque Config.maxGap : Option Nat

/-- The free value of a section time that does not fit 32 signed bits. Entry 10. -/
opaque Config.timeOverflow : Int → Word

/-- The free value of a distance that does not fit 32 bits. Entry 10. -/
opaque Config.distOverflow : Nat → Word

/-- The code of table index `k`: R138 numbers the bytes 0..255, Sync0 256 and Sync1 257. -/
def EfmCode.ofIndex (k : Symbol) : EfmCode :=
  if k.toNat < 256 then .byte (BitVec.ofNat 8 k.toNat)
  else if k.toNat = 256 then .sync0
  else if k.toNat = 257 then .sync1
  else .invalid

/-- A Reed-Solomon decoder with property (b) of R12: a codeword comes back unchanged, whatever the erasures.
The all-zero word is a codeword, because the codes are linear (R346). -/
def Config.codec {n : Nat} (member : Vector Byte n → Bool)
    (correct : Vector Byte n → Vector Bool n → Option (Vector Byte n))
    (cw : Vector Byte n) (erased : Vector Bool n) : Option (Vector Byte n) :=
  if cw = Vector.replicate n 0 ∨ member cw = true then some cw else correct cw erased

/-- The parameters the machine of `exec` and `step` runs with. -/
def Config.machine : Params where
  efmDecode v := EfmCode.ofIndex (Config.efmIndex v)
  rsC1 := Config.codec Config.c1Member Config.c1Correct
  rsC2 := Config.codec Config.c2Member Config.c2Correct
  qCrcInit := Config.qCrcInit
  deinterleave o := Config.deinterleave o
  maxGap := Config.maxGap
  timeOverflow := Config.timeOverflow
  distOverflow := Config.distOverflow

end Sys2Proof
end

