-- ==== Sys2Proof/Machine/Ops.lean ====
section
/-!
DEFINITION. The named operations every stage shares: the saturating counters, stored section times and the stored
distance, the fatal halt (taking an exception) with RESET (the only way back), and the run of a list of units.
-/

namespace Sys2Proof.Machine

/-! ### Counters (R11, R80) -/

/-- The value of a counter. -/
def cntGet (k : Counter) (cs : Counters) : Word := cs[k.index]

/-- `w += n`, saturating at 0xFFFFFFFF (R11, I26). -/
def satAdd (w : Word) (n : Nat) : Word := BitVec.ofNat 32 (min (w.toNat + n) 0xFFFFFFFF)

/-- Add `n` to one counter. -/
def bump (k : Counter) (n : Nat) (cs : Counters) : Counters :=
  cs.set k.index.val (satAdd cs[k.index] n) k.index.isLt

/-! ### Stored times and distances (R11, R64) -/

/-- Store a section time in 32 signed bits. Outside their range the spec states no value (R11 argues that it does not
happen), so a free value stands there (DESIGN CHOICE, safe, entry 10). -/
def storeTime (c : Params) (t : Int) : Word :=
  if -2147483648 ≤ t ∧ t < 2147483648 then BitVec.ofInt 32 t else c.timeOverflow t

/-- `D + 1` stored in 32 bits (R64, R336), a free value where it does not fit (DESIGN CHOICE, safe, entry 10). -/
def nextDist (c : Params) (d : Word) : Word :=
  if d.toNat + 1 < 4294967296 then d + 1 else c.distOverflow (d.toNat + 1)

/-! ### The fatal halt and RESET -/

/-- `raise Fatal(cause, expected, actual)` (R575): the four fatal registers. That nothing else runs in this host
action is `runAll`'s check of `FATAL`, and every later host action checks it again (R578). -/
def raiseFatal (f : FatalInfo) (s : State) : State :=
  { s with
    fatal := true
    fatalCause := f.cause
    fatalExpected := f.expected
    fatalActual := f.actual }

/-- The reset operation (R535, R610), the only way out of the fatal state (R577). The actions the host has not issued
yet are not the block's and stay (entry 1). -/
def resetMachine (s : State) : State := { State.reset with hostIn := s.hostIn }

/-- Run one operation for each unit of a list in FIFO order (R6), until the fatal halt stops processing: "every unit
in an inter-stage queue not yet consumed is discarded" (R575). -/
def runAll {α : Type} (run : α → State → State) : List α → State → State
  | [], s => s
  | x :: xs, s => if s.fatal then s else runAll run xs (run x s)

end Sys2Proof.Machine
end

