-- ==== Sys2Proof/Machine/Stage1.lean ====
section
/-!
DEFINITION. Stage 1, T-values to channel frames (40_tvalues_to_channel.md): the sync-pattern matcher, one rule for
each state, the stage loop, and the flush.
-/

namespace Sys2Proof.Machine

/-! ### The matcher -/

/-- The index of the first sync pattern of a token sequence. -/
def firstSync : List Byte → Option Nat
  | [] => none
  | [_] => none
  | a :: b :: rest =>
    if a = tvSyncToken ∧ b = tvSyncToken then some 0 else (firstSync (b :: rest)).map (· + 1)

/-- `findSync(s, from)` (R202). -/
def findSync (s : List Byte) (start : Nat) : Option Nat := (firstSync (s.drop start)).map (start + ·)

/-- Does the sequence end in a token 11? -/
def endsInSyncToken (s : List Byte) : Bool := s.getLast? == some tvSyncToken

/-- `pend(s)`: the token sum, less a trailing 11 (R204). -/
def pendingBits (s : List Byte) : Nat := tokenSum s - (if endsInSyncToken s then 11 else 0)

/-- `span(j)` (R203). -/
def spanTo (s : List Byte) (j : Nat) : Nat := tokenSum (s.take j)

/-- The acceptance window (R207, R211, R215). -/
def inAcceptWindow (s : Nat) : Bool := decide (tvAcceptMin ≤ s ∧ s ≤ tvAcceptMax)

/-! ### The rules of the states -/

/-- What one rule of the stage loop does: the new state and counters, the frames it emits, and whether it says
`continue`. -/
structure Stage1Result where
  st : Stage1
  cnt : Counters
  frames : List ChannelFrame
  again : Bool

/-- Initial sync (R206). -/
def tvInitialSync (st : Stage1) (cnt : Counters) : Stage1Result :=
  match findSync st.buf 0 with
  | some i =>
    { st := { st with buf := st.buf.drop i, state := .expectingSync }
      cnt := bump .tvTokensDiscarded i cnt
      frames := []
      again := true }
  | none =>
    let k := if endsInSyncToken st.buf then 1 else 0
    { st := { st with buf := st.buf.drop (st.buf.length - k) }
      cnt := bump .tvTokensDiscarded (st.buf.length - k) cnt
      frames := []
      again := false }

/-- The counter of an accepted frame: exact for 588 bits, tolerated otherwise (R208, C4). -/
def acceptCounter (s : Nat) : Counter := if s = tvFrameBits then .tvFramesExact else .tvFramesTolerated

/-- Accept a frame of span in [551,599] (R208). -/
def tvAccept (j : Nat) (st : Stage1) (cnt : Counters) : Stage1Result where
  st := { st with buf := st.buf.drop j }
  cnt := bump (acceptCounter (spanTo st.buf j)) 1 cnt
  frames := [channelBits (st.buf.take j)]
  again := true

/-- The number of frames nearest to a span of `s` bits, `floor((s + 294) / 588)` (R209). -/
def splitCount (s : Nat) : Nat := (s + 294) / 588

/-- May a span of `s` bits be split (R209)? -/
def splittable (s : Nat) : Bool :=
  decide (2 ≤ splitCount s ∧ s ≤ 588 * splitCount s + tvSplitTol ∧ 588 * splitCount s ≤ s + tvSplitTol)

/-- Cut a bit sequence into `n` frames at the multiples of 588, the last taking the remainder (R209). -/
def splitFrames (b : List Bool) (n : Nat) : List ChannelFrame :=
  (List.range (n - 1)).map (fun m => (b.drop (588 * m)).take 588) ++ [b.drop (588 * (n - 1))]

/-- Overshoot: split, or discard and resume at the sync at `j` (R209). -/
def tvOvershoot (j : Nat) (st : Stage1) (cnt : Counters) : Stage1Result :=
  let s := spanTo st.buf j
  let st' : Stage1 := { st with buf := st.buf.drop j, state := .expectingSync }
  if splittable s then
    { st := st'
      cnt := bump .tvFramesSplit (splitCount s) cnt
      frames := splitFrames (channelBits (st.buf.take j)) (splitCount s)
      again := true }
  else
    { st := st'
      cnt := bump .tvTokensDiscarded j (bump .tvOvershootDiscards 1 cnt)
      frames := []
      again := true }

/-- Lost sync (R212). -/
def tvLostSync (st : Stage1) (cnt : Counters) : Stage1Result :=
  let k := if endsInSyncToken st.buf then 1 else 0
  { st := { st with buf := st.buf.drop (st.buf.length - k), state := .expectingInitialSync }
    cnt := bump .tvLostSync 1 (bump .tvTokensDiscarded (st.buf.length - k) cnt)
    frames := []
    again := true }

/-- Look for the next sync (R207). -/
def tvExpectSync (st : Stage1) (cnt : Counters) : Stage1Result :=
  match findSync st.buf 2 with
  | some j =>
    if inAcceptWindow (spanTo st.buf j) then tvAccept j st cnt
    else if spanTo st.buf j < tvAcceptMin then
      { st := { st with undJ := j, state := .handleUndershoot }, cnt := cnt, frames := [], again := true }
    else tvOvershoot j st cnt
  | none =>
    if tvSyncSearchLimit < pendingBits st.buf then tvLostSync st cnt
    else { st := st, cnt := cnt, frames := [], again := false }

/-- Undershoot timeout (R213). -/
def tvUndershootTimeout (st : Stage1) (cnt : Counters) : Stage1Result where
  st := { st with buf := st.buf.drop st.undJ, state := .expectingSync }
  cnt := bump .tvTokensDiscarded st.undJ (bump .tvUndershoots 1 cnt)
  frames := []
  again := true

/-- Undershoot probe (R211). -/
def tvUndershoot (st : Stage1) (cnt : Counters) : Stage1Result :=
  match findSync st.buf (st.undJ + 2) with
  | some k =>
    if inAcceptWindow (spanTo st.buf k) then
      { st := { st with buf := st.buf.drop k, state := .expectingSync }
        cnt := bump .tvUndershootFixups 1 cnt
        frames := [channelBits (st.buf.take k)]
        again := true }
    else
      { st := { st with buf := st.buf.drop st.undJ, state := .expectingSync }
        cnt := bump .tvTokensDiscarded st.undJ (bump .tvUndershoots 1 cnt)
        frames := []
        again := true }
  | none =>
    if tvSyncSearchLimit < pendingBits st.buf then tvUndershootTimeout st cnt
    else { st := st, cnt := cnt, frames := [], again := false }

/-- The rule of the current state (R205). `HandleOvershoot` is resolved inside R207 and never held (R41). -/
def stage1Rule (st : Stage1) (cnt : Counters) : Stage1Result :=
  match st.state with
  | .expectingInitialSync => tvInitialSync st cnt
  | .expectingSync => tvExpectSync st cnt
  | .handleUndershoot => tvUndershoot st cnt
  | .handleOvershoot => { st := st, cnt := cnt, frames := [], again := false }

/-! ### The stage loop, one token, the flush -/

/-- The stage loop (R205), at most `fuel` rules long; the frames come out in the order they are emitted. -/
def stage1Loop : Nat → Stage1 → Counters → Stage1Result
  | 0, st, cnt => { st := st, cnt := cnt, frames := [], again := true }
  | fuel + 1, st, cnt =>
    let r := stage1Rule st cnt
    if r.again then
      let q := stage1Loop fuel r.st r.cnt
      { q with frames := r.frames ++ q.frames }
    else r

/-- Rules enough for any buffer: at most four in a row do not shorten it (entry 12). -/
def stage1Fuel (st : Stage1) : Nat := 4 * st.buf.length + 5

/-- A token in 3..11 is in range (R130, R200). -/
def tokenInRange (t : Byte) : Bool := decide (3 ≤ t.toNat ∧ t.toNat ≤ 11)

/-- The counters that taking a token changes before the loop (R200). -/
def countToken (t : Byte) (cnt : Counters) : Counters :=
  let cnt := bump .tvTokensIn 1 cnt
  if tokenInRange t then cnt else bump .tvTokensOutOfRange 1 cnt

/-- Take one token (R200). -/
def stage1Take (t : Byte) (st : Stage1) (cnt : Counters) : Stage1Result :=
  if t = 0 then
    { st := st, cnt := bump .tvTokensDiscarded 1 (countToken t cnt), frames := [], again := false }
  else
    let st' : Stage1 := { st with buf := st.buf ++ [t] }
    stage1Loop (stage1Fuel st') st' (countToken t cnt)

/-- The first part of the flush: an open undershoot is given up (R215). -/
def flushUndershoot (st : Stage1) (cnt : Counters) : Stage1 × Counters :=
  match st.state with
  | .handleUndershoot =>
    ({ st with buf := st.buf.drop st.undJ, state := .expectingSync },
      bump .tvTokensDiscarded st.undJ (bump .tvUndershoots 1 cnt))
  | .expectingInitialSync => (st, cnt)
  | .expectingSync => (st, cnt)
  | .handleOvershoot => (st, cnt)

/-- Flush of stage 1 (R215). -/
def stage1Flush (st : Stage1) (cnt : Counters) : Stage1Result :=
  let p := flushUndershoot st cnt
  let s := tokenSum p.1.buf
  let idle : Stage1 := ⟨[], .expectingInitialSync, 0⟩
  if p.1.state = .expectingSync ∧ inAcceptWindow s = true then
    { st := idle, cnt := bump (acceptCounter s) 1 p.2, frames := [channelBits p.1.buf], again := false }
  else
    { st := idle, cnt := bump .tvTokensDiscarded p.1.buf.length p.2, frames := [], again := false }

end Sys2Proof.Machine
end

