-- ==== Sys2Proof/Machine/Stage2.lean ====
section
/-!
DEFINITION. Stage 2, channel frame to F3 frame (41_channel_to_f3.md).
-/

namespace Sys2Proof.Machine

/-- The frame type of a subcode symbol and its subcode error bit (R251, R252). -/
def subcodeType (d : EfmCode) : FrameType × Bool :=
  match d with
  | .sync0 => (.sync0, false)
  | .sync1 => (.sync1, false)
  | .byte b => (.subcode b, false)
  | .invalid => (.subcode 0x00#8, true)

/-- The cell of a data symbol: its byte, or 0x00 with the error flag for an invalid or a sync symbol (R254); never
padded (R256). -/
def dataCell (d : EfmCode) : Cell :=
  match d with
  | .byte b => ⟨b, false, false⟩
  | .sync0 => ⟨0x00#8, true, false⟩
  | .sync1 => ⟨0x00#8, true, false⟩
  | .invalid => ⟨0x00#8, true, false⟩

/-- Is the code a data byte? -/
def isDataByte (d : EfmCode) : Bool :=
  match d with
  | .byte _ => true
  | .sync0 => false
  | .sync1 => false
  | .invalid => false

/-- The counters of a subcode symbol (R251). -/
def countSubcode (d : EfmCode) (cnt : Counters) : Counters :=
  if d = .invalid then bump .efmSubcodeErrors 1 cnt else cnt

/-- The counters of one present data symbol (R254). -/
def countDataSymbol (d : EfmCode) (cnt : Counters) : Counters :=
  if isDataByte d then cnt else bump .efmDataSymbolErrors 1 cnt

/-- Is data symbol `i` present in a frame of `len` bits (R136)? -/
def symbolPresent (len i : Nat) : Bool := decide (58 + 17 * i ≤ len)

/-- The code of data symbol `i` (R253). -/
def dataCode (c : Params) (cf : ChannelFrame) (i : Nat) : EfmCode := c.efmDecode (symbolAt cf (44 + 17 * i))

/-- `decodeData(cf, i)` (R254, R255). -/
def decodeData (c : Params) (cf : ChannelFrame) (i : Nat) : Cell :=
  if symbolPresent cf.length i then dataCell (dataCode c cf i) else ⟨0x00#8, true, false⟩

/-- The present data symbols that are not a data byte (R254). -/
def dataErrors (c : Params) (cf : ChannelFrame) : Nat :=
  (List.range 32).countP fun i => symbolPresent cf.length i && !isDataByte (dataCode c cf i)

/-- The absent data symbols (R255). -/
def missingSymbols (cf : ChannelFrame) : Nat := (List.range 32).countP fun i => !symbolPresent cf.length i

/-- Convert one channel frame (R250). -/
def stage2Convert (c : Params) (cf : ChannelFrame) (cnt : Counters) : F3Frame × Counters :=
  let sub := c.efmDecode (symbolAt cf 27)
  ({ cells := Vector.ofFn fun i => decodeData c cf i.val
     type := (subcodeType sub).1
     subcodeError := (subcodeType sub).2 },
    bump .efmMissingSymbols (missingSymbols cf)
      (bump .efmDataSymbolErrors (dataErrors c cf) (countSubcode sub cnt)))

end Sys2Proof.Machine
end

