-- ==== Sys2Proof/Machine/Subcode.lean ====
section
/-!
DEFINITION. The subcode decoder (46_subcode.md): the Q-channel CRC, the single-bit repair, and the decode of the Q
fields into a section metadata record.
-/

namespace Sys2Proof.Machine

/-! ### CRC and repair -/

/-- One bit of the CRC register (R473). -/
def crcStep (r : BitVec 16) (x : Bool) : BitVec 16 :=
  if (r.msb ^^ x) = true then (r <<< 1) ^^^ qCrcPoly else r <<< 1

/-- `crc(b)`: most significant bit of each byte first, final complement (R473). -/
def crc (init : BitVec 16) (bytes : List Byte) : BitVec 16 :=
  ((bytes.flatMap byteBits).foldl crcStep init) ^^^ 0xFFFF#16

/-- `crcOK(q)` (R473). -/
def crcOK (init : BitVec 16) (q : QChannel) : Bool := crc init (q.toList.take 10) == q[10] ++ q[11]

/-- The first of the bits 0..79 whose flip makes the CRC match (R475). -/
def repairBit (init : BitVec 16) (q : QChannel) : Option (Fin 96) :=
  (List.finRange 96).find? fun i => decide (i.val < 80) && crcOK init (flipQBit q i)

/-- What `checkAndRepair` answers: the Q channel to decode and whether it was repaired, or no match (R474, R475). -/
inductive QCheck where
  | good (q : QChannel) (repaired : Bool)
  | bad
  deriving DecidableEq, Repr

/-- `checkAndRepair(q)` (R474, R475). -/
def checkAndRepair (init : BitVec 16) (q : QChannel) : QCheck :=
  if crcOK init q then .good q false
  else match repairBit init q with
    | some i => .good (flipQBit q i) true
    | none => .bad

/-- The counter of a check (R474, R475). -/
def checkCounter : QCheck → Counter
  | .good _ false => .qCrcOk
  | .good _ true => .qRepaired
  | .bad => .qCrcFail

/-! ### Field decode -/

/-- `invalidMeta(p)` (R484). -/
def invalidMeta (p : Bool) : SectionMeta where
  sectionType := .leadIn
  qMode := .none
  trackNumber := 0
  relativeTime := 0
  absoluteTime := 0
  catalogue := 0
  pFlag := p
  isValid := false
  isRepaired := false
  isAudio := false
  isCopyPermitted := false
  hasPreemphasis := false
  is4Channel := false

/-- `sectionType(tno)` (R482). -/
def sectionTypeOf (tno : Byte) : SectionType :=
  if tno = 0x00#8 then .leadIn else if tno = 0xAA#8 then .leadOut else .userData

/-- The track number of TNO: 170 for 0xAA, else the value of a valid BCD byte (R477). -/
def trackOf (tno : Byte) : Option Byte :=
  if tno = 0xAA#8 then some 170#8 else (bcd tno).map (BitVec.ofNat 8)

/-- The absolute time of a mode 1 or 4 channel: the running time `rel` in the lead-in, else `q[7..9]` (R477, R485). -/
def absTimeOf (q : QChannel) (rel : Nat) : Option Nat :=
  if sectionTypeOf q[1] = .leadIn then some rel else bcdTime q[7] q[8] q[9]

/-- Q-mode 1 and 4 decode, `none` for a rejection (R477, R481). -/
def decodeMode14 (mode : QMode) (q : QChannel) (p repaired : Bool) : Option SectionMeta := do
  let track ← trackOf q[1]
  let rel ← bcdTime q[3] q[4] q[5]
  let abs ← absTimeOf q rel
  pure (withControlFlags q[0]
    { invalidMeta p with
      sectionType := sectionTypeOf q[1]
      qMode := mode
      trackNumber := track
      relativeTime := BitVec.ofNat 32 rel
      absoluteTime := BitVec.ofNat 32 abs
      isValid := true
      isRepaired := repaired })

/-- The 52-bit catalogue: the digits N1..N13 from `q[1]` bits 7..4 to `q[7]` bits 7..4 (R478). -/
def catalogueOf (q : QChannel) : BitVec 52 :=
  q[1] ++ q[2] ++ q[3] ++ q[4] ++ q[5] ++ q[6] ++ q[7].extractLsb' 4 4

/-- Are the thirteen catalogue digits decimal (R478)? -/
def catalogueOK (q : QChannel) : Bool :=
  [q[1], q[2], q[3], q[4], q[5], q[6]].all (fun b => (bcd b).isSome) && decide (q[7].toNat / 16 ≤ 9)

/-- The frame remainder of a mode 2 channel: `q[9]` as BCD below 75 (R478). -/
def remainderOf (q : QChannel) : Option Nat := (bcd q[9]).filter fun f => decide (f < 75)

/-- Q-mode 2 decode, `none` for a rejection (R478, R481). -/
def decodeMode2 (q : QChannel) (p repaired : Bool) : Option SectionMeta := do
  let f ← remainderOf q
  if catalogueOK q then
    pure (withControlFlags q[0]
      { invalidMeta p with
        sectionType := .userData
        qMode := .mode2
        absoluteTime := BitVec.ofNat 32 f
        catalogue := catalogueOf q
        isValid := true
        isRepaired := repaired })
  else none

/-- What the mode dispatch answers (R476). -/
inductive QDecode where
  /-- A valid record. -/
  | record (m : SectionMeta)
  /-- Rejected fields or an unsupported mode (R480, R481). -/
  | rejected
  /-- Q-mode 3 (R479). -/
  | mode3
  deriving DecidableEq, Repr

/-- A decoded record, or a rejection. -/
def recordOrRejected : Option SectionMeta → QDecode
  | some m => .record m
  | none => .rejected

/-- `decodeQ(q, p, repaired)`: the dispatch on ADR, the low nibble of `q[0]` (R476). -/
def decodeQ (q : QChannel) (p repaired : Bool) : QDecode :=
  match q[0].toNat % 16 with
  | 1 => recordOrRejected (decodeMode14 .mode1 q p repaired)
  | 2 => recordOrRejected (decodeMode2 q p repaired)
  | 3 => .mode3
  | 4 => recordOrRejected (decodeMode14 .mode4 q p repaired)
  | _ => .rejected

/-- `fromData(sub)` (R470): the metadata of a section's 98 subcode bytes, or the fatal halt of Q-mode 3 (R479). -/
def fromData (init : BitVec 16) (sub : List Byte) (cnt : Counters) : Flow Counters SectionMeta :=
  let p := pFlagOf sub
  let check := checkAndRepair init (assembleQ sub)
  let cnt := bump (checkCounter check) 1 cnt
  match check with
  | .bad => .ok cnt (invalidMeta p)
  | .good q repaired =>
    match decodeQ q p repaired with
    | .record m => .ok cnt m
    | .rejected => .ok (bump .qRejected 1 cnt) (invalidMeta p)
    | .mode3 => .fatal cnt ⟨.unsupportedQMode3, 0, 0⟩

end Sys2Proof.Machine
end

