-- ==== Sys2Proof/Machine/Stage3.lean ====
section
/-!
DEFINITION. Stage 3, F3 frames to F2 section (42_f3_to_f2section.md): the boundaries, the branches of the dispatch,
finishing a section, and the flush.
-/

namespace Sys2Proof.Machine

/-- The state a stage 3 rule reads and writes. -/
abbrev S3 := Stage3 × Counters

/-! ### Finishing a section -/

/-- The subcode byte of a frame: `b` of `Subcode(b)`, 0x00 for the sync types (R252). -/
def subcodeByte (f : F3Frame) : Byte :=
  match f.type with
  | .subcode b => b
  | .sync0 => 0x00#8
  | .sync1 => 0x00#8

/-- Q-modes 1 and 4, whose absolute time is a full section time (R294, R295). -/
def hasFullTime (m : SectionMeta) : Bool :=
  match m.qMode with
  | .mode1 => true
  | .mode4 => true
  | .none => false
  | .mode2 => false

/-- Does the repair plausibility check invalidate this record (R294)? -/
def jumpsTooFar (lastAbs : Option Word) (m : SectionMeta) : Bool :=
  match lastAbs with
  | some t => m.isValid && m.isRepaired && hasFullTime m &&
      decide (subJumpLimit < |m.absoluteTime.toInt - t.toInt|)
  | none => false

/-- `updateLast(meta)` (R295). -/
def updateLast (lastAbs : Option Word) (m : SectionMeta) : Option Word :=
  if m.isValid && hasFullTime m then some m.absoluteTime else lastAbs

/-- `jumpCheck(meta)` (R294). -/
def jumpCheck (lastAbs : Option Word) (m : SectionMeta) : SectionMeta :=
  if jumpsTooFar lastAbs m then invalidMeta m.pFlag else m

/-- The counter of the jump check (R294). -/
def countJump (lastAbs : Option Word) (m : SectionMeta) (cnt : Counters) : Counters :=
  if jumpsTooFar lastAbs m then bump .qJumpInvalidated 1 cnt else cnt

/-- `finish(S)` (R293). -/
def finish (c : Params) (frames : List F3Frame) (x : S3) : Flow S3 F2Section :=
  match fromData c.qCrcInit (frames.map subcodeByte) x.2 with
  | .fatal cnt info => .fatal (x.1, cnt) info
  | .ok cnt m =>
    .ok ({ x.1 with lastAbs := updateLast x.1.lastAbs (jumpCheck x.1.lastAbs m) }, countJump x.1.lastAbs m cnt)
      ⟨frames.map fun f => f.cells, jumpCheck x.1.lastAbs m⟩

/-- Finish several sections in order; a fatal in one stops the rest (R289), and the sections finished before it are
units of stage 4's queue not yet consumed, which the halt discards (R575, entry 11). -/
def finishAll (c : Params) : List (List F3Frame) → S3 → Flow S3 (List F2Section)
  | [], x => .ok x []
  | fs :: more, x =>
    match finish c fs x with
    | .fatal x info => .fatal x info
    | .ok x sec =>
      match finishAll c more x with
      | .fatal x info => .fatal x info
      | .ok x secs => .ok x (sec :: secs)

/-- Finish the sections of a boundary, then let the rule write the rest of its state; a raise leaves that rest
unwritten (R575). -/
def finishThen (c : Params) (sections : List (List F3Frame)) (rest : S3 → S3) (x : S3) : Flow S3 (List F2Section) :=
  match finishAll c sections x with
  | .fatal x info => .fatal x info
  | .ok x secs => .ok (rest x) secs

/-! ### The branches of the dispatch -/

/-- Drop to initial sync with the accumulation discarded; `prev` is what stays in `f3_prev` (R283, R292). -/
def f3DropSync (prev : Option F3Frame) (x : S3) : S3 :=
  ({ x.1 with state := .expectingInitialSync, acc := [], prev := prev, bad := 0 },
    bump .f3LostSync 1 (bump .f3FramesDiscarded x.1.acc.length x.2))

/-- Accumulation overflow, if the accumulation exceeds its limit (R283). -/
def f3CheckOverflow (x : S3) : S3 :=
  if f3AccumLimit < x.1.acc.length then f3DropSync x.1.prev x else x

/-- Handle valid (R285). -/
def f3Valid (c : Params) (a b : List F3Frame) : S3 → Flow S3 (List F2Section) :=
  finishThen c [a] fun x => ({ x.1 with bad := 0, acc := b }, bump .f3SectionsExact 1 x.2)

/-- Undershoot, boundary discarded (R286). -/
def f3Discard (a b : List F3Frame) (x : S3) : S3 :=
  f3CheckOverflow ({ x.1 with acc := a ++ b }, bump .f3BoundariesDiscarded 1 x.2)

/-- The inserted error frame (R288). -/
def errorFrame : F3Frame where
  cells := Vector.replicate 32 ⟨0x00#8, true, false⟩
  type := .subcode 0x00#8
  subcodeError := true

/-- `g` error frames and the frames of `rest`, alternating, then what is left of `rest`: indices `4 + 2k` of the
finished section when it follows the first four frames (R287, D15). -/
def interleavePads : Nat → List F3Frame → List F3Frame
  | 0, rest => rest
  | g + 1, [] => errorFrame :: interleavePads g []
  | g + 1, f :: rest => errorFrame :: f :: interleavePads g rest

/-- The padded section `S` (R287). -/
def padSection (a : List F3Frame) : List F3Frame :=
  a.take f3PadOffset ++ interleavePads (f3SectionFrames - a.length) (a.drop f3PadOffset)

/-- Undershoot, padded (R287). -/
def f3Pad (c : Params) (a b : List F3Frame) : S3 → Flow S3 (List F2Section) :=
  finishThen c [padSection a] fun x =>
    ({ x.1 with acc := b },
      bump .f3FramesInserted (f3SectionFrames - a.length) (bump .f3SectionsPadded 1 x.2))

/-- The consecutive pieces of 98 frames (R289). -/
def splitSections (a : List F3Frame) : List (List F3Frame) :=
  (List.range (a.length / 98)).map fun r => (a.drop (98 * r)).take 98

/-- Overshoot, split (R289). -/
def f3Split (c : Params) (a b : List F3Frame) : S3 → Flow S3 (List F2Section) :=
  finishThen c (splitSections a) fun x =>
    ({ x.1 with acc := b }, bump .f3SectionsSplit (a.length / 98) x.2)

/-- Overshoot, trimmed to the trailing 98 frames (R290). -/
def f3Trim (c : Params) (a b : List F3Frame) (x : S3) : Flow S3 (List F2Section) :=
  finishThen c [a.drop (a.length - 98)]
    (fun x => ({ x.1 with acc := b }, bump .f3OvershootTrims 1 x.2))
    (x.1, bump .f3FramesDiscarded (a.length - 98) x.2)

/-- Bad-boundary count, and lost sync at the third (R291, R292). -/
def f3BadBoundary (x : S3) : S3 :=
  let x : S3 := ({ x.1 with bad := x.1.bad + 1 }, x.2)
  if x.1.bad = f3BadSyncLimit then f3DropSync none x else x

/-- Apply a rule to the state of a flow that did not raise. -/
def flowThen {σ α : Type} (rest : σ → σ) : Flow σ α → Flow σ α
  | .ok x out => .ok (rest x) out
  | .fatal x info => .fatal x info

/-- Dispatch a boundary (R284). -/
def f3Dispatch (c : Params) (a b : List F3Frame) (x : S3) : Flow S3 (List F2Section) :=
  let n := a.length
  if n = f3SectionFrames then f3Valid c a b x
  else if n < f3SectionFrames then
    if f3MaxShortfall < f3SectionFrames - n then flowThen f3BadBoundary (.ok (f3Discard a b x) [])
    else flowThen f3BadBoundary (f3Pad c a b x)
  else if n % 98 = 0 then flowThen f3BadBoundary (f3Split c a b x)
  else flowThen f3BadBoundary (f3Trim c a b x)

/-! ### Taking one frame -/

/-- The boundary an F3 frame makes in state `ExpectingSync`: the candidate section and the new start (R279). A
`Sync1` is one when the frame before it is no `Sync0`. -/
def f3Boundary (acc : List F3Frame) (f : F3Frame) : Option (List F3Frame × List F3Frame) :=
  match f.type with
  | .sync0 => some (acc, [f])
  | .sync1 =>
    match acc.getLast? with
    | some l => if l.type = .sync0 then none else some (acc.dropLast, [l, f])
    | none => none
  | .subcode _ => none

/-- How many frames leave `f3_prev` without being used. -/
def prevCount (prev : Option F3Frame) : Nat := if prev.isSome then 1 else 0

/-- Initial sync (R281). -/
def f3InitialSync (f : F3Frame) (x : S3) : S3 :=
  match f.type, x.1.prev with
  | .sync0, prev =>
    ({ x.1 with prev := none, acc := [f], state := .expectingSync },
      bump .f3FramesDiscarded (prevCount prev) x.2)
  | .sync1, some p => ({ x.1 with prev := none, acc := [p, f], state := .expectingSync }, x.2)
  | .sync1, none => ({ x.1 with prev := some f }, x.2)
  | .subcode _, prev => ({ x.1 with prev := some f }, bump .f3FramesDiscarded (prevCount prev) x.2)

/-- Expecting sync (R282). -/
def f3ExpectSync (c : Params) (f : F3Frame) (x : S3) : Flow S3 (List F2Section) :=
  match f3Boundary x.1.acc f with
  | some (a, b) => f3Dispatch c a b x
  | none => .ok (f3CheckOverflow ({ x.1 with acc := x.1.acc ++ [f] }, x.2)) []

/-- Take one F3 frame (R280). -/
def stage3Take (c : Params) (f : F3Frame) (x : S3) : Flow S3 (List F2Section) :=
  let x : S3 := (x.1, bump .f3FramesIn 1 x.2)
  match x.1.state with
  | .expectingInitialSync => .ok (f3InitialSync f x) []
  | .expectingSync => f3ExpectSync c f x

/-- The last part of the flush: stage 3 in its reset state (R297). -/
def f3Clear (x : S3) : S3 :=
  (⟨.expectingInitialSync, [], none, 0, none⟩, bump .f3FramesDiscarded (prevCount x.1.prev) x.2)

/-- Flush of stage 3 (R297). -/
def stage3Flush (c : Params) (x : S3) : Flow S3 (List F2Section) :=
  if x.1.state = .expectingSync ∧ x.1.acc.length = f3SectionFrames then
    finishThen c [x.1.acc] (fun x => f3Clear (x.1, bump .f3SectionsExact 1 x.2)) x
  else .ok (f3Clear (x.1, bump .f3FramesDiscarded x.1.acc.length x.2)) []

end Sys2Proof.Machine
end

