-- ==== Sys2Proof/Machine/Stage4.lean ====
section
/-!
DEFINITION. Stage 4, F2 section correction (43_f2_section_correction.md): the settle phase, the steady phase, the
synthesis of a gap, and the flush. `out(S)` of R331 is the list of sections a rule answers; Pipeline.lean appends
them to `f2_out` and hands them to stage 5.
-/

namespace Sys2Proof.Machine

/-- The state a stage 4 rule reads and writes. -/
abbrev S4 := Stage4 × Counters

/-- `S.abs`, as an exact integer (R11). -/
def absOf (m : SectionMeta) : Int := m.absoluteTime.toInt

/-- A section with its absolute time replaced. -/
def withAbs (c : Params) (t : Int) (sec : F2Section) : F2Section :=
  { sec with info := { sec.info with absoluteTime := storeTime c t } }

/-! ### Settle phase -/

/-- Settle, invalid section, or a Q-mode 2 section off its time: the run is dropped with the section (R332, R333). -/
def settleDrop (x : S4) : S4 :=
  ({ x.1 with settle := [] }, bump .f2cSettleDiscards (x.1.settle.length + 1) x.2)

/-- Settle, append and leave the settle phase (R335). -/
def settleAppend (sec : F2Section) (x : S4) : S4 × List F2Section :=
  let run := x.1.settle ++ [sec]
  if run.length = f2cSettleCount then
    (({ phase := .steady, settle := [], last := some sec.info, pending := [], dist := 0 }, x.2), run)
  else (({ x.1 with settle := run }, x.2), [])

/-- Settle, Q-mode 2 section (R333). -/
def settleMode2 (c : Params) (sec : F2Section) (x : S4) : S4 × List F2Section :=
  match x.1.settle.getLast? with
  | none => ((x.1, bump .f2cSettleDiscards 1 x.2), [])
  | some l =>
    let e := absOf l.info + 1
    if absOf sec.info = e % 75 then settleAppend (withAbs c e sec) x else (settleDrop x, [])

/-- Settle, valid section of Q-mode 1 or 4 (R334, R335). -/
def settleTimed (sec : F2Section) (x : S4) : S4 × List F2Section :=
  match x.1.settle.getLast? with
  | none => settleAppend sec x
  | some l =>
    if absOf sec.info = absOf l.info + 1 then settleAppend sec x
    else (({ x.1 with settle := [sec] }, bump .f2cSettleDiscards x.1.settle.length x.2), [])

/-- The settle phase (R332 to R335). -/
def f2cSettle (c : Params) (sec : F2Section) (x : S4) : S4 × List F2Section :=
  if sec.info.isValid = false then (settleDrop x, [])
  else if sec.info.qMode = .mode2 then settleMode2 c sec x
  else settleTimed sec x

/-! ### Steady phase -/

/-- Steady, invalid section (R336). -/
def steadyInvalid (c : Params) (sec : F2Section) (x : S4) : S4 × List F2Section :=
  let pending := x.1.pending ++ [sec]
  let st : Stage4 := { x.1 with dist := nextDist c x.1.dist }
  if f2cPendingLimit < pending.length then
    (({ st with pending := pending.drop 1 }, bump .f2cUnrepairedEmitted 1 x.2), pending.take 1)
  else (({ st with pending := pending }, x.2), [])

/-- `expected` (R337). -/
def expectedTime (l : SectionMeta) (dist : Word) : Int := absOf l + dist.toNat + 1

/-- Steady, Q-mode 2 correction into the second of `expected` (R338). -/
def correctMode2 (c : Params) (expected : Int) (sec : F2Section) : F2Section :=
  if sec.info.qMode = .mode2 then withAbs c (expected - expected % 75 + absOf sec.info % 75) sec else sec

/-- `interpolated(L, idx, p)` (R340). -/
def interpolated (c : Params) (l : SectionMeta) (idx : Int) (p : Bool) : SectionMeta :=
  { l with
    absoluteTime := storeTime c (absOf l + idx)
    relativeTime := storeTime c (l.relativeTime.toInt + idx)
    isValid := true
    isRepaired := true
    pFlag := p }

/-- The pending sections repaired, the first standing `idx` sections after `L` (R339). -/
def interpolateFrom (c : Params) (l : SectionMeta) : Int → List F2Section → List F2Section
  | _, [] => []
  | idx, sec :: more =>
    { sec with info := interpolated c l idx sec.info.pFlag } :: interpolateFrom c l (idx + 1) more

/-- Steady, section on time (R339). -/
def steadyOnTime (c : Params) (l : SectionMeta) (sec : F2Section) (x : S4) : S4 × List F2Section :=
  (({ x.1 with last := some sec.info, dist := 0, pending := [] },
      bump .f2cInterpolated x.1.pending.length x.2),
    interpolateFrom c l (x.1.dist.toNat - x.1.pending.length + 1) x.1.pending ++ [sec])

/-- Error-kind synthetic frame (R345). -/
def errorKindFrame : F2Frame := Vector.replicate 32 ⟨0x00#8, true, false⟩

/-- The byte positions that hold inverted parity: 12..15 and 28..31 (R141, R346, R391). -/
def isParity (p : Nat) : Bool := decide (12 ≤ p ∧ p < 16 ∨ 28 ≤ p)

/-- Padding-kind synthetic frame (R346). -/
def paddingKindFrame : F2Frame :=
  Vector.ofFn fun p => ⟨if isParity p.val then 0xFF#8 else 0x00#8, false, true⟩

/-- The metadata of a synthetic section for time `t` (R347). -/
def syntheticMeta (c : Params) (l : SectionMeta) (t : Int) : SectionMeta :=
  { l with
    absoluteTime := storeTime c t
    relativeTime := storeTime c (l.relativeTime.toInt + (t - absOf l))
    isValid := true
    isRepaired := true }

/-- `synthetic(kind, L, t)`, the kind given by its frame (R345 to R347). -/
def synthetic (c : Params) (frame : F2Frame) (l : SectionMeta) (t : Int) : F2Section :=
  ⟨List.replicate 98 frame, syntheticMeta c l t⟩

/-- Is a gap of `g` sections filled with error-kind sections (R344, C8)? -/
def gapIsError (watermark : BitVec 16) (g : Nat) : Bool := decide (g ≤ watermark.toNat)

/-- Steady, gap synthesis of `g` sections (R344). -/
def steadyGap (c : Params) (watermark : BitVec 16) (l : SectionMeta) (expected : Int) (g : Nat) (sec : F2Section)
    (x : S4) : S4 × List F2Section :=
  let isError := gapIsError watermark g
  let frame := if isError then errorKindFrame else paddingKindFrame
  let counter : Counter := if isError then .f2cGapErrorSections else .f2cGapPaddingSections
  (({ x.1 with last := some sec.info, dist := 0 }, bump counter g x.2),
    (List.range g).map (fun (r : Nat) => synthetic c frame l (expected + r)) ++ [sec])

/-- Does a gap of `g` sections exceed `F2C_MAX_GAP` (R343)? -/
def gapTooLarge (maxGap : Option Nat) (g : Nat) : Bool :=
  match maxGap with
  | some m => decide (m < g)
  | none => false

/-- The context of a fatal gap: the cause, expected and actual time (R342, R343, R572). -/
def gapInfo (c : Params) (cause : FatalCause) (expected : Int) (sec : F2Section) : FatalInfo :=
  ⟨cause, storeTime c expected, sec.info.absoluteTime⟩

/-- A rule that does not raise. -/
def noRaise (r : S4 × List F2Section) : Flow S4 (List F2Section) := .ok r.1 r.2

/-- Steady, valid section whose time has been corrected (R339, R341 to R344). -/
def steadyTimed (c : Params) (watermark : BitVec 16) (l : SectionMeta) (expected : Int) (sec : F2Section) (x : S4) :
    Flow S4 (List F2Section) :=
  if absOf sec.info = expected then noRaise (steadyOnTime c l sec x)
  else if absOf sec.info < expected then .ok (x.1, bump .f2cOutOfOrderDrops 1 x.2) []
  else if x.1.dist ≠ 0 then .fatal x (gapInfo c .uncorrectableGap expected sec)
  else
    let g := (absOf sec.info - expected).toNat
    if gapTooLarge c.maxGap g then .fatal x (gapInfo c .gapTooLarge expected sec)
    else noRaise (steadyGap c watermark l expected g sec x)

/-- The steady phase (R336 to R347). Without `f2c_last`, which the phase always has (R62), nothing happens
(entry 13). -/
def f2cSteady (c : Params) (watermark : BitVec 16) (sec : F2Section) (x : S4) : Flow S4 (List F2Section) :=
  if sec.info.isValid = false then noRaise (steadyInvalid c sec x)
  else
    match x.1.last with
    | none => .ok x []
    | some l =>
      let expected := expectedTime l x.1.dist
      steadyTimed c watermark l expected (correctMode2 c expected sec) x

/-- Take one F2 section (R330). -/
def stage4Take (c : Params) (watermark : BitVec 16) (sec : F2Section) (x : S4) : Flow S4 (List F2Section) :=
  let x : S4 := (x.1, bump .f2cSectionsIn 1 x.2)
  match x.1.phase with
  | .settle => noRaise (f2cSettle c sec x)
  | .steady => f2cSteady c watermark sec x

/-- Flush of stage 4 (R348). -/
def stage4Flush (x : S4) : S4 × List F2Section :=
  ((⟨.settle, [], none, [], 0⟩,
      bump .f2cUnrepairedEmitted x.1.pending.length (bump .f2cSettleDiscards x.1.settle.length x.2)),
    x.1.pending)

end Sys2Proof.Machine
end

