-- ==== Sys2Proof/Machine/Stage5.lean ====
section
/-!
DEFINITION. Stage 5, the CIRC decoder (44_circ_decoder.md): the delay lines, the two Reed-Solomon passes as calls of
the codec parameters, the cascade of the seven steps, one section, and the flush.
-/

namespace Sys2Proof.Machine

/-- The state a stage 5 rule reads and writes. -/
abbrev S5 := Stage5 × Counters

/-! ### Delay lines -/

/-- What a push lets out: the input itself on a line of length 0, else the cell at the head of the line (R392). -/
def dlOut {n : Nat} (len : Fin n → Nat) (d : DelaySet n) (v : Vector Cell n) : Vector Cell n :=
  Vector.ofFn fun p => if len p = 0 then v[p] else d.lines[p].headD Cell.zero

/-- The set after a push, `longest` being its longest line (R392). -/
def dlNext {n : Nat} (len : Fin n → Nat) (longest : Nat) (d : DelaySet n) (v : Vector Cell n) : DelaySet n where
  lines := Vector.ofFn fun p => if len p = 0 then d.lines[p] else d.lines[p].tail ++ [v[p]]
  count := min (d.count + 1) (longest + 1)

/-! ### The seven steps -/

/-- Step 1, parity inversion of the bytes 12..15 and 28..31 (R391). -/
def invertParity (x : F2Frame) : F2Frame :=
  Vector.ofFn fun p =>
    if 12 ≤ p.val ∧ p.val < 16 ∨ 28 ≤ p.val then { x[p] with data := x[p].data ^^^ 0xFF#8 } else x[p]

/-- Step 3, C1 decode (R396). -/
def c1Decode (c : Params) (w : Vector Cell 32) : Vector Cell 32 :=
  afterDecode (c.rsC1 (cellBytes w) (erasures w)) w

/-- The counter of a C1 decode (R397). -/
def c1Counter (c : Params) (w : Vector Cell 32) : Counter :=
  if (c.rsC1 (cellBytes w) (erasures w)).isSome then .c1Ok else .c1Fail

/-- The cells 0..27 of a C1 result, which go on to `DLM` (R397). -/
def c1Kept (x : Vector Cell 32) : Vector Cell 28 := Vector.ofFn fun p => x[p.val]

/-- Step 5, C2 decode (R399). -/
def c2Decode (c : Params) (w : Vector Cell 28) : Vector Cell 28 :=
  afterDecode (c.rsC2 (cellBytes w) (erasures w)) w

/-- The counter of a C2 decode (R400). -/
def c2Counter (c : Params) (w : Vector Cell 28) : Counter :=
  if (c.rsC2 (cellBytes w) (erasures w)).isSome then .c2Ok else .c2Fail

/-- The C2 position of payload cell `j`: the parity cells 12..15 are dropped (R401). -/
def c2DataPos (j : Fin 24) : Fin 28 := if j.val < 12 then ⟨j.val, by omega⟩ else ⟨j.val + 4, by omega⟩

/-- `c2data(c)` (R401). -/
def c2Data (x : Vector Cell 28) : Vector Cell 24 := Vector.ofFn fun j => x[c2DataPos j]

/-- Step 6, `deinterleave(e)` (R402). -/
def deinterleaveCells (c : Params) (e : Vector Cell 24) : Vector Cell 24 := Vector.ofFn fun o => e[c.deinterleave o]

/-- `placeholder()` (R404). -/
def placeholder : F1Frame := Vector.replicate 24 Cell.zero

/-- A placeholder frame is counted as lost (R404). -/
def lostFrame (x : S5) : F1Frame × S5 := (placeholder, (x.1, bump .circLostFrames 1 x.2))

/-- Steps 6 and 7, on the C2 result (R401 to R403). -/
def circTail (c : Params) (c2 : Vector Cell 28) (x : S5) : F1Frame × S5 :=
  let d := deinterleaveCells c (c2Data c2)
  let set := dlNext dl2Len dl2Max x.1.dl2 d
  let x' : S5 := ({ x.1 with dl2 := set }, x.2)
  if ready dl2Max set then (dlOut dl2Len x.1.dl2 d, x') else lostFrame x'

/-- Steps 4 and 5, on the C1 result (R397 to R400). -/
def circMiddle (c : Params) (c1 : Vector Cell 32) (x : S5) : F1Frame × S5 :=
  let v := c1Kept c1
  let w := dlOut dlMLen x.1.dlM v
  let set := dlNext dlMLen dlMMax x.1.dlM v
  let x' : S5 := ({ x.1 with dlM := set }, x.2)
  if ready dlMMax set then circTail c (c2Decode c w) (x'.1, bump (c2Counter c w) 1 x'.2) else lostFrame x'

/-- `decodeFrame(x)`, the cascade (R394). -/
def decodeFrame (c : Params) (frame : F2Frame) (x : S5) : F1Frame × S5 :=
  let v := invertParity frame
  let w := dlOut dl1Len x.1.dl1 v
  let set := dlNext dl1Len dl1Max x.1.dl1 v
  let x' : S5 := ({ x.1 with dl1 := set }, x.2)
  if ready dl1Max set then circMiddle c (c1Decode c w) (x'.1, bump (c1Counter c w) 1 x'.2) else lostFrame x'

/-- Decode frames in order (R390). -/
def decodeFrames (c : Params) : List F2Frame → S5 → List F1Frame × S5
  | [], x => ([], x)
  | f :: more, x =>
    let r := decodeFrame c f (x.1, bump .circFramesIn 1 x.2)
    let q := decodeFrames c more r.2
    (r.1 :: q.1, q.2)

/-- Decode one F2 section; the F1 section carries its metadata (R390, R405). -/
def stage5Take (c : Params) (sec : F2Section) (x : S5) : F1Section × S5 :=
  let r := decodeFrames c sec.frames x
  (⟨r.1, sec.info⟩, r.2)

/-- Flush of stage 5: every set as at reset, no frame (R406). -/
def stage5Flush : Stage5 where
  dl1 := DelaySet.fresh 32 dl1Len
  dlM := DelaySet.fresh 28 dlMLen
  dl2 := DelaySet.fresh 24 dl2Len

end Sys2Proof.Machine
end

