-- ==== Sys2Proof/Machine/Stage6.lean ====
section
/-!
DEFINITION. Stage 6, F1 section to Data24 section (45_f1_to_data24.md).
-/

namespace Sys2Proof.Machine

/-- The other position of a byte pair, `i XOR 1` (R451). -/
def pairedPos (i : Fin 24) : Fin 24 :=
  if h : i.val % 2 = 0 then ⟨i.val + 1, by omega⟩ else ⟨i.val - 1, by omega⟩

/-- `unswap(x)`: every adjacent pair of cells swapped, the byte with its flags (R451, R452). -/
def unswap (x : F1Frame) : F1Frame := Vector.ofFn fun i => x[pairedPos i]

/-- The error bytes of a frame (R453). -/
def errorBytes (x : F1Frame) : Nat := x.toList.countP fun cl => cl.error

/-- The padded bytes of a frame (R453). -/
def paddedBytes (x : F1Frame) : Nat := x.toList.countP fun cl => cl.padded

/-- `tally` of one Data24 frame, and its emission (R453, R454). -/
def tally (x : F1Frame) (cnt : Counters) : Counters :=
  bump .d24FramesOut 1 (bump .d24PaddedBytes (paddedBytes x) (bump .d24ErrorBytes (errorBytes x) cnt))

/-- Convert one F1 section (R450, R454). -/
def stage6Take (sec : F1Section) (cnt : Counters) : F1Section × Counters :=
  let frames := sec.frames.map unswap
  (⟨frames, sec.info⟩, frames.foldl (fun cnt y => tally y cnt) cnt)

end Sys2Proof.Machine
end

