-- ==== Sys2Proof/Machine/Pipeline.lean ====
section
/-!
DEFINITION. The six stages in their fixed order (R5), run to completion within one host action (R6): each unit a
stage emits goes through every later stage before the stage takes its next unit, and the fatal halt stops it all
(R575; the order is DEDUCED, entry 11). With it the token intake, the flush, and stage 2 driven symbol by symbol.
-/

namespace Sys2Proof.Machine

/-! ### Running a unit through a stage and all later ones -/

/-- Stage 6 takes an F1 section and appends the Data24 section to `d24_out` (R450). -/
def runStage6 (sec : F1Section) (s : State) : State :=
  let r := stage6Take sec s.cnt
  { s with d24Out := s.d24Out ++ [r.1], cnt := r.2 }

/-- Stage 5 takes an F2 section (R390). -/
def runStage5 (c : Params) (sec : F2Section) (s : State) : State :=
  let r := stage5Take c sec (s.circ, s.cnt)
  runStage6 r.1 { s with circ := r.2.1, cnt := r.2.2 }

/-- `out(S)`: the section goes to `f2_out` and to stage 5 (R331). -/
def outSection (c : Params) (sec : F2Section) (s : State) : State :=
  runStage5 c sec { s with f2Out := s.f2Out ++ [sec], cnt := bump .f2cSectionsOut 1 s.cnt }

/-- What stage 4 answered: its state, and each emitted section through stages 5 and 6; or the halt. -/
def settleStage4 (c : Params) (r : Flow S4 (List F2Section)) (s : State) : State :=
  match r with
  | .ok x secs => runAll (outSection c) secs { s with f2c := x.1, cnt := x.2 }
  | .fatal x info => raiseFatal info { s with f2c := x.1, cnt := x.2 }

/-- Stage 4 takes an F2 section (R330). -/
def runStage4 (c : Params) (sec : F2Section) (s : State) : State :=
  settleStage4 c (stage4Take c s.watermark sec (s.f2c, s.cnt)) s

/-- What stage 3 answered: its state, and each emitted section through stages 4 to 6; or the halt. -/
def settleStage3 (c : Params) (r : Flow S3 (List F2Section)) (s : State) : State :=
  match r with
  | .ok x secs => runAll (runStage4 c) secs { s with f3 := x.1, cnt := x.2 }
  | .fatal x info => raiseFatal info { s with f3 := x.1, cnt := x.2 }

/-- Stage 3 takes an F3 frame (R280). -/
def runStage3 (c : Params) (f : F3Frame) (s : State) : State :=
  settleStage3 c (stage3Take c f (s.f3, s.cnt)) s

/-- Stage 2 converts a channel frame (R250). -/
def runStage2 (c : Params) (cf : ChannelFrame) (s : State) : State :=
  let r := stage2Convert c cf s.cnt
  runStage3 c r.1 { s with cnt := r.2 }

/-- What stage 1 answered: its state, and each emitted frame through stages 2 to 6. -/
def settleStage1 (c : Params) (r : Stage1Result) (s : State) : State :=
  runAll (runStage2 c) r.frames { s with tv := r.st, cnt := r.cnt }

/-! ### Tokens -/

/-- Push one token: rejected and counted while fatal (R531), else taken by stage 1 and the later stages (R530). -/
def pushToken (c : Params) (t : Byte) (s : State) : State :=
  if s.fatal then { s with cnt := bump .hostTokensRejected 1 s.cnt }
  else settleStage1 c (stage1Take t s.tv s.cnt) s

/-! ### Flush -/

/-- Flush stage 1 and run stages 2 to 6 until empty (R215, R534). -/
def flushStage1 (c : Params) (s : State) : State := settleStage1 c (stage1Flush s.tv s.cnt) s

/-- Stage 2 keeps nothing over a flush (R534, entry 5). -/
def flushStage2 (s : State) : State := { s with sym := none }

/-- Flush stage 3 and run stages 4 to 6 until empty (R297, R534). -/
def flushStage3 (c : Params) (s : State) : State := settleStage3 c (stage3Flush c (s.f3, s.cnt)) s

/-- Flush stage 4 and run stages 5 and 6 until empty (R348, R534). -/
def flushStage4 (c : Params) (s : State) : State := settleStage4 c (noRaise (stage4Flush (s.f2c, s.cnt))) s

/-- Flush stage 5 (R406). -/
def flushStage5 (s : State) : State := { s with circ := stage5Flush }

/-- FLUSH: stage by stage in pipeline order, ignored while fatal, and stopped by a fatal halt (R534, R578). -/
def flushAll (c : Params) (s : State) : State :=
  runAll (fun (flush : State → State) s => flush s)
    [flushStage1 c, flushStage2, flushStage3 c, flushStage4 c, flushStage5] s

/-! ### Stage 2 driven by single symbols (entry 5) -/

/-- The F3 frame made of a type, an error bit and 32 cells (R140). -/
def frameOfCells (p : PartialFrame) : F3Frame where
  cells := Vector.ofFn fun i => p.cells.getD i.val Cell.zero
  type := p.type
  subcodeError := p.subcodeError

/-- A data symbol of the code `d` for the frame being filled; the 32nd completes it (R250, R254). -/
def takeDataCode (c : Params) (d : EfmCode) (p : PartialFrame) (s : State) : State :=
  let p' : PartialFrame := { p with cells := p.cells ++ [dataCell d] }
  let cnt := countDataSymbol d s.cnt
  if p'.cells.length < 32 then { s with sym := some p', cnt := cnt }
  else runStage3 c (frameOfCells p') { s with sym := none, cnt := cnt }

/-- A subcode symbol of the code `d` starts a frame (R250, R251). -/
def takeSubcodeCode (d : EfmCode) (s : State) : State :=
  { s with
    sym := some ⟨(subcodeType d).1, (subcodeType d).2, []⟩
    cnt := countSubcode d s.cnt }

/-- Stage 2 takes one symbol of the code `d`: the first of a frame is the subcode symbol, the next 32 are data
symbols 0..31 (R135, R250). Nothing is processed while fatal (R575, R577). -/
def takeSymbolCode (c : Params) (d : EfmCode) (s : State) : State :=
  if s.fatal then s
  else match s.sym with
    | none => takeSubcodeCode d s
    | some p => takeDataCode c d p s

end Sys2Proof.Machine
end

