-- ==== Sys2Proof/Machine/Registers.lean ====
section
/-!
DEFINITION. The host register block (30_encoding.md rules R170 to R175), the control commands, and the serialized
records of the two output streams (R165).
-/

namespace Sys2Proof.Machine

/-! ### Registers -/

/-- Is the access aligned (R102)? -/
def aligned (addr : Addr) : Bool := addr.toNat % 4 == 0

/-- The value a read of a register returns; 0 at CTRL, TV_DATA and at every address that names no register (R103,
R170, R532). -/
def readRegister (addr : Addr) (s : State) : Word :=
  if addr = 0x004#12 then statusWord s
  else if addr = 0x008#12 then s.watermark.setWidth 32
  else if addr = 0x00C#12 then s.fatalExpected
  else if addr = 0x010#12 then s.fatalActual
  else if addr = 0x018#12 then outLevelWord s
  else if 0x100 ≤ addr.toNat then s.cnt[(addr.toNat - 0x100) / 4]?.getD 0
  else 0

/-- A write to CTRL: RESET if bit 1 is set, else FLUSH if bit 0 is set, else nothing (R171, R534, R535, R538). -/
def writeControl (c : Params) (v : Word) (s : State) : State :=
  if v.getLsbD 1 then resetMachine s
  else if v.getLsbD 0 then flushAll c s
  else s

/-- A write to TV_DATA: bits 7..0 are the token, bits 31..8 are ignored (R174, R530). -/
def writeToken (c : Params) (v : Word) (s : State) : State := pushToken c (v.setWidth 8) s

/-- A register write (R533): no effect at a read-only or reserved address (R103, R104). -/
def writeRegister (c : Params) (addr : Addr) (v : Word) (s : State) : State :=
  if addr = 0x000#12 then writeControl c v s
  else if addr = 0x008#12 then { s with watermark := v.setWidth 16 }
  else if addr = 0x014#12 then writeToken c v s
  else s

/-! ### Serialized records (R165) -/

/-- The code of `section_type` (R160). -/
def sectionTypeCode : SectionType → Byte
  | .leadIn => 0
  | .leadOut => 1
  | .userData => 2

/-- The code of `q_mode` (R160). -/
def qModeCode : QMode → Byte
  | .none => 0
  | .mode1 => 1
  | .mode2 => 2
  | .mode4 => 4

/-- The bytes at offsets 4..29 of a record. -/
def metaBytes (m : SectionMeta) : List Byte :=
  [sectionTypeCode m.sectionType] ++ beBytes 4 m.relativeTime.toNat ++ beBytes 4 m.absoluteTime.toNat ++
    [m.trackNumber, boolByte m.isValid, boolByte m.isAudio, boolByte m.isCopyPermitted, boolByte m.hasPreemphasis,
      boolByte m.is4Channel] ++
    beBytes 8 m.catalogue.toNat ++ [qModeCode m.qMode, boolByte m.isRepaired, boolByte m.pFlag]

/-- The `3n` bytes of a frame: data, error flags, padded flags. -/
def frameBytes {n : Nat} (x : Vector Cell n) : List Byte :=
  x.toList.map (fun cl => cl.data) ++ x.toList.map (fun cl => boolByte cl.error) ++
    x.toList.map (fun cl => boolByte cl.padded)

/-- A record: tag, frame count, frame size, metadata, frames. -/
def recordBytes {n : Nat} (tag : Byte) (frames : List (Vector Cell n)) (m : SectionMeta) : List Byte :=
  [tag] ++ beBytes 2 frames.length ++ [BitVec.ofNat 8 n] ++ metaBytes m ++ frames.flatMap frameBytes

/-- `serialize` of an F2 section. -/
def serializeF2 (sec : F2Section) : List Byte := recordBytes 0xF2#8 sec.frames sec.info

/-- `serialize` of a Data24 section. -/
def serializeD24 (sec : F1Section) : List Byte := recordBytes 0xD4#8 sec.frames sec.info

end Sys2Proof.Machine
end

