-- ==== Sys2Proof/Machine/HostCommands.lean ====
section
/-!
DEFINITION. The meanings of the host commands (47_host_commands.md).
-/

namespace Sys2Proof.Machine

/-- `PUSH_TV` (R530, R531). -/
def execPushTv (v : Word) (s : State) : Host.Outcome State Fault Refusal := .next (writeToken Config.machine v s)

/-- `FLUSH` (R534); bits 31..2 of the written value are ignored. -/
def execFlush (_hi : BitVec 30) (s : State) : Host.Outcome State Fault Refusal := .next (flushAll Config.machine s)

/-- `RESET` (R535); bit 0 and bits 31..2 of the written value are ignored (R538). -/
def execReset (_hi : BitVec 30) (_bit0 : Bool) (s : State) : Host.Outcome State Fault Refusal :=
  .next (resetMachine s)

/-- `REG_READ` (R532): the value is the reply, and no other state changes (R104). An unaligned access is refused
(R102). -/
def execRegRead (addr : Addr) (s : State) : Host.Outcome State Fault Refusal :=
  if aligned addr then .next { s with reply := .word (readRegister addr s) } else .refused (.unalignedAccess addr)

/-- `REG_WRITE` (R533). An unaligned access is refused (R102). -/
def execRegWrite (addr : Addr) (v : Word) (s : State) : Host.Outcome State Fault Refusal :=
  if aligned addr then .next (writeRegister Config.machine addr v s) else .refused (.unalignedAccess addr)

/-- `POP_F2` (R536). -/
def execPopF2 (s : State) : Host.Outcome State Fault Refusal :=
  match s.f2Out with
  | [] => .next { s with reply := .empty }
  | sec :: rest => .next { s with f2Out := rest, reply := .record (serializeF2 sec) }

/-- `POP_D24` (R537). -/
def execPopD24 (s : State) : Host.Outcome State Fault Refusal :=
  match s.d24Out with
  | [] => .next { s with reply := .empty }
  | sec :: rest => .next { s with d24Out := rest, reply := .record (serializeD24 sec) }

end Sys2Proof.Machine
end

