-- ==== Sys2Proof/Machine/Symbols.lean ====
section
/-!
DEFINITION. The meanings of the channel-symbol rows (R251, R254): stage 2 driven by one symbol (entry 5). The row says
the class of the symbol; the byte of a data symbol is what EFM_DECODE gives.
-/

namespace Sys2Proof.Machine

/-- `SYM_SYNC0`: the frame type Sync0 in the subcode slot, an error byte in a data slot. -/
def execSymSync0 (_v : Symbol) (s : State) : Host.Outcome State Fault Refusal :=
  .next (takeSymbolCode Config.machine .sync0 s)

/-- `SYM_SYNC1`: the frame type Sync1 in the subcode slot, an error byte in a data slot. -/
def execSymSync1 (_v : Symbol) (s : State) : Host.Outcome State Fault Refusal :=
  .next (takeSymbolCode Config.machine .sync1 s)

/-- `SYM_DATA`: the subcode byte in the subcode slot, the data byte in a data slot. -/
def execSymData (v : Symbol) (s : State) : Host.Outcome State Fault Refusal :=
  .next (takeSymbolCode Config.machine (Config.machine.efmDecode v) s)

/-- `SYM_INVALID`: the subcode error bit in the subcode slot, an error byte in a data slot. -/
def execSymInvalid (_v : Symbol) (s : State) : Host.Outcome State Fault Refusal :=
  .next (takeSymbolCode Config.machine .invalid s)

end Sys2Proof.Machine
end

