-- ==== Sys2Proof/Machine/Tokens.lean ====
section
/-!
DEFINITION. The meanings of the token rows and of SYNC. A token at the input stream is a token written to TV_DATA
(R100, R186; DEDUCED, entry 4): each row pushes its token (R200, R530, R531).
-/

namespace Sys2Proof.Machine

/-- `T3`. -/
def execT3 (s : State) : Host.Outcome State Fault Refusal := .next (pushToken Config.machine 0x03#8 s)

/-- `T4`. -/
def execT4 (s : State) : Host.Outcome State Fault Refusal := .next (pushToken Config.machine 0x04#8 s)

/-- `T5`. -/
def execT5 (s : State) : Host.Outcome State Fault Refusal := .next (pushToken Config.machine 0x05#8 s)

/-- `T6`. -/
def execT6 (s : State) : Host.Outcome State Fault Refusal := .next (pushToken Config.machine 0x06#8 s)

/-- `T7`. -/
def execT7 (s : State) : Host.Outcome State Fault Refusal := .next (pushToken Config.machine 0x07#8 s)

/-- `T8`. -/
def execT8 (s : State) : Host.Outcome State Fault Refusal := .next (pushToken Config.machine 0x08#8 s)

/-- `T9`. -/
def execT9 (s : State) : Host.Outcome State Fault Refusal := .next (pushToken Config.machine 0x09#8 s)

/-- `T10`. -/
def execT10 (s : State) : Host.Outcome State Fault Refusal := .next (pushToken Config.machine 0x0A#8 s)

/-- `T11`. -/
def execT11 (s : State) : Host.Outcome State Fault Refusal := .next (pushToken Config.machine 0x0B#8 s)

/-- `TV_ZERO`: discarded and counted (R131, R200). -/
def execTvZero (s : State) : Host.Outcome State Fault Refusal := .next (pushToken Config.machine 0x00#8 s)

/-- `TV_SHORT`: expanded and counted out of range (R131, R200). -/
def execTvShort (t : BitVec 2) (s : State) : Host.Outcome State Fault Refusal :=
  .next (pushToken Config.machine (0#6 ++ t) s)

/-- `TV_LONG`: expanded and counted out of range (R131, R200). -/
def execTvLong (t : Byte) (s : State) : Host.Outcome State Fault Refusal := .next (pushToken Config.machine t s)

/-- `SYNC`: the two tokens `T11 T11` one after the other (R132, R186). -/
def execSync (s : State) : Host.Outcome State Fault Refusal :=
  .next (pushToken Config.machine 0x0B#8 (pushToken Config.machine 0x0B#8 s))

end Sys2Proof.Machine
end

