-- ==== Sys2Proof/Machine/Dispatch.lean ====
section
/-!
DEFINITION. The dispatch of an instruction to its meaning.
-/

namespace Sys2Proof.Machine

def exec (i : Instr) (s : State) : Host.Outcome State Fault Refusal :=
  match i with
  | .t3 => Sys2Proof.Machine.execT3 s
  | .t4 => Sys2Proof.Machine.execT4 s
  | .t5 => Sys2Proof.Machine.execT5 s
  | .t6 => Sys2Proof.Machine.execT6 s
  | .t7 => Sys2Proof.Machine.execT7 s
  | .t8 => Sys2Proof.Machine.execT8 s
  | .t9 => Sys2Proof.Machine.execT9 s
  | .t10 => Sys2Proof.Machine.execT10 s
  | .t11 => Sys2Proof.Machine.execT11 s
  | .tvZero => Sys2Proof.Machine.execTvZero s
  | .tvShort t => Sys2Proof.Machine.execTvShort t s
  | .tvLong t => Sys2Proof.Machine.execTvLong t s
  | .sync => Sys2Proof.Machine.execSync s
  | .symSync0 v => Sys2Proof.Machine.execSymSync0 v s
  | .symSync1 v => Sys2Proof.Machine.execSymSync1 v s
  | .symData v => Sys2Proof.Machine.execSymData v s
  | .symInvalid v => Sys2Proof.Machine.execSymInvalid v s
  | .pushTv v => Sys2Proof.Machine.execPushTv v s
  | .flush hi => Sys2Proof.Machine.execFlush hi s
  | .reset hi bit0 => Sys2Proof.Machine.execReset hi bit0 s
  | .regRead addr => Sys2Proof.Machine.execRegRead addr s
  | .regWrite addr v => Sys2Proof.Machine.execRegWrite addr v s
  | .popF2 => Sys2Proof.Machine.execPopF2 s
  | .popD24 => Sys2Proof.Machine.execPopD24 s

end Sys2Proof.Machine
end

