-- ==== Sys2Proof/WellFormed.lean ====
section
/-!
DEFINITION. Which instructions the opcode table admits: the ranges its rows give the operands, and the class of a
channel symbol under EFM_DECODE.
-/

namespace Sys2Proof

/-- Bits 1..0 of a value written to CTRL: RESET and FLUSH (R171). A REG_WRITE row of the table is a write that is
neither a command nor a token: its address is not TV_DATA, and at CTRL both command bits are clear (R538). -/
def regWriteAdmitted (addr : Addr) (v : Word) : Bool :=
  addr.toNat % 4 == 0 && addr != 0x014#12 && (addr != 0x000#12 || (v.toNat % 4 == 0))

/-- The check, for a given EFM table. -/
def wellFormedWith (c : Params) : Instr → Bool
  | .t3 => true
  | .t4 => true
  | .t5 => true
  | .t6 => true
  | .t7 => true
  | .t8 => true
  | .t9 => true
  | .t10 => true
  | .t11 => true
  | .tvZero => true
  | .tvShort t => t == 1#2 || t == 2#2
  | .tvLong t => decide (12 ≤ t.toNat)
  | .sync => true
  | .symSync0 v => c.efmDecode v == .sync0
  | .symSync1 v => c.efmDecode v == .sync1
  | .symData v => match c.efmDecode v with
    | .byte _ => true
    | .sync0 => false
    | .sync1 => false
    | .invalid => false
  | .symInvalid v => c.efmDecode v == .invalid
  | .pushTv _ => true
  | .flush _ => true
  | .reset _ _ => true
  | .regRead addr => addr.toNat % 4 == 0
  | .regWrite addr v => regWriteAdmitted addr v
  | .popF2 => true
  | .popD24 => true

/-- The check for the machine's own EFM table. -/
def wellFormed (i : Instr) : Bool := wellFormedWith Config.machine i

end Sys2Proof
end

