-- ==== Sys2Proof/Decode.lean ====
section
/-!
DEFINITION. The decoder of what the host presents at the ports, total on any list of port items and rejecting by
name, the encoder after it, and the numbering of the opcode table's words as port items.
-/

namespace Sys2Proof

/-- Why the decoder rejects. -/
inductive DecodeError where
  /-- There is nothing to take. -/
  | noInput
  /-- A register access that is not 4 bytes wide (R102). -/
  | accessWidth (width : Nat)
  /-- A register access at an address that is not a multiple of 4 (R102). -/
  | unaligned (addr : Addr)
  deriving DecidableEq, Repr

/-- The row of one token byte (R130, R131). -/
def tokenInstr (b : Byte) : Instr :=
  match b.toNat with
  | 0 => .tvZero
  | 1 => .tvShort 1#2
  | 2 => .tvShort 2#2
  | 3 => .t3
  | 4 => .t4
  | 5 => .t5
  | 6 => .t6
  | 7 => .t7
  | 8 => .t8
  | 9 => .t9
  | 10 => .t10
  | 11 => .t11
  | _ => .tvLong b

/-- The row of a channel symbol: its class under EFM_DECODE (R251, R254). -/
def symbolInstrWith (c : Params) (v : Symbol) : Instr :=
  match c.efmDecode v with
  | .sync0 => .symSync0 v
  | .sync1 => .symSync1 v
  | .byte _ => .symData v
  | .invalid => .symInvalid v

/-- The row of an admitted register write: PUSH_TV at TV_DATA; at CTRL RESET if bit 1 is set, else FLUSH if bit 0 is
set; REG_WRITE otherwise (R171, R530, R534, R535, R538; DEDUCED, entry 17). -/
def writeInstr (addr : Addr) (v : Word) : Instr :=
  if addr = 0x014#12 then .pushTv v
  else if addr = 0x000#12 then
    if v.getLsbD 1 then .reset (v.extractLsb' 2 30) (v.getLsbD 0)
    else if v.getLsbD 0 then .flush (v.extractLsb' 2 30)
    else .regWrite addr v
  else .regWrite addr v

/-- Why a register access of this width at this address is not admitted, if it is not (R102). -/
def accessError (width : Nat) (addr : Addr) : Option DecodeError :=
  if width ≠ 4 then some (.accessWidth width)
  else if addr.toNat % 4 ≠ 0 then some (.unaligned addr)
  else none

/-- The decoder: the first instruction and the items left after it. Two tokens 11 in a row are the sync pattern
(R132; DEDUCED, entry 3). -/
def decodeWith (c : Params) : List PortItem → Except DecodeError (Instr × List PortItem)
  | [] => .error .noInput
  | .token a :: rest =>
    match rest with
    | .token b :: rest' =>
      if a = 0x0B#8 ∧ b = 0x0B#8 then .ok (.sync, rest') else .ok (tokenInstr a, rest)
    | _ => .ok (tokenInstr a, rest)
  | .symbol v :: rest => .ok (symbolInstrWith c v, rest)
  | .memWrite width addr v :: rest =>
    match accessError width addr with
    | some e => .error e
    | none => .ok (writeInstr addr v, rest)
  | .memRead width addr :: rest =>
    match accessError width addr with
    | some e => .error e
    | none => .ok (.regRead addr, rest)
  | .popF2 :: rest => .ok (.popF2, rest)
  | .popD24 :: rest => .ok (.popD24, rest)

/-- The decoder with the machine's own EFM table. -/
def decode (items : List PortItem) : Except DecodeError (Instr × List PortItem) :=
  decodeWith Config.machine items

/-- The encoder: the port items of an instruction, from the encodings of the opcode table. -/
def encode : Instr → List PortItem
  | .t3 => [.token 0x03#8]
  | .t4 => [.token 0x04#8]
  | .t5 => [.token 0x05#8]
  | .t6 => [.token 0x06#8]
  | .t7 => [.token 0x07#8]
  | .t8 => [.token 0x08#8]
  | .t9 => [.token 0x09#8]
  | .t10 => [.token 0x0A#8]
  | .t11 => [.token 0x0B#8]
  | .tvZero => [.token 0x00#8]
  | .tvShort t => [.token (0#6 ++ t)]
  | .tvLong t => [.token t]
  | .sync => [.token 0x0B#8, .token 0x0B#8]
  | .symSync0 v => [.symbol v]
  | .symSync1 v => [.symbol v]
  | .symData v => [.symbol v]
  | .symInvalid v => [.symbol v]
  | .pushTv v => [.memWrite 4 0x014#12 v]
  | .flush hi => [.memWrite 4 0x000#12 (hi ++ 0b01#2)]
  | .reset hi bit0 => [.memWrite 4 0x000#12 (hi ++ (BitVec.ofBool true ++ BitVec.ofBool bit0))]
  | .regRead addr => [.memRead 4 addr]
  | .regWrite addr v => [.memWrite 4 addr v]
  | .popF2 => [.popF2]
  | .popD24 => [.popD24]

/-- The port items that a numbered word of the opcode table stands for (entry 2). A word of one byte is a token. A
word of two bytes is the two tokens of SYNC if it reads 0x0B0B, its low byte first, and a 14-bit symbol otherwise; 14
bits are always a symbol. A word of 32 bits or more is a host action in the model's own layout: bits 31..0 the value,
43..32 the address, 45..44 the kind (write, read, pop of `f2_out`, pop of `d24_out`). -/
def tableItems (nbits w : Nat) : List PortItem :=
  if nbits ≤ 8 then [.token (BitVec.ofNat 8 w)]
  else if nbits = 16 ∧ w = 0x0B0B then
    [.token (BitVec.ofNat 8 (w % 256)), .token (BitVec.ofNat 8 (w / 256))]
  else if nbits ≤ 16 then [.symbol (BitVec.ofNat 14 w)]
  else
    match w / 2 ^ 44 % 4 with
    | 0 => [.memWrite 4 (BitVec.ofNat 12 (w / 2 ^ 32)) (BitVec.ofNat 32 w)]
    | 1 => [.memRead 4 (BitVec.ofNat 12 (w / 2 ^ 32))]
    | 2 => [.popF2]
    | _ => [.popD24]

/-- The instruction the decoder reads from a numbered word of the opcode table. -/
def decodeTableWord (nbits w : Nat) : Option Instr :=
  match decode (tableItems nbits w) with
  | .ok (i, _) => some i
  | .error _ => none

end Sys2Proof
end

