-- ==== Sys2Proof/Machine/Ports.lean ====
section
/-!
DEFINITION. Taking the next host action from the ports: the fetch of the model.
-/

namespace Sys2Proof.Machine

/-- What the ports give next. -/
inductive Fetched where
  /-- An instruction, and the state without the items it was read from. -/
  | instr (i : Instr) (s : State)
  /-- A host action that is not admitted (R102). -/
  | refusal (r : Refusal)
  /-- No action waits. -/
  | idle

/-- What a rejection of the decoder means at the ports (R102). -/
def rejected : DecodeError → Fetched
  | .noInput => .idle
  | .accessWidth width => .refusal (.accessWidth width)
  | .unaligned addr => .refusal (.unalignedAccess addr)

/-- Take the next host action (R6, R181). -/
def fetchAction (s : State) : Fetched :=
  match decode s.hostIn with
  | .ok p => .instr p.1 { s with hostIn := p.2 }
  | .error e => rejected e

end Sys2Proof.Machine
end

