-- ==== Sys2Proof/Machine/Step.lean ====
section
/-!
DEFINITION. One step: the next host action is taken from the ports, decoded and run to completion (R6). With no
action waiting the block does nothing (R583).
-/

namespace Sys2Proof.Machine

/-- One step of the machine. -/
def step (s : State) : Host.Outcome State Fault Refusal :=
  match fetchAction s with
  | .instr i s' => exec i s'
  | .refusal r => .refused r
  | .idle => .next s

/-- `s` with one numbered word of the opcode table as the host's waiting action (entries 1 and 2). -/
def State.withFetchWord (s : State) (nbits w : Nat) : State := { s with hostIn := tableItems nbits w }

end Sys2Proof.Machine
end

