-- ==== Sys2Proof/Safety.lean ====
section
/-!
DEFINITION. The terms in which claims speak of the machine: what a good state is, which token an instruction pushes,
the values some rules give, written out from the rules and not by the machine's own functions, what a flush releases,
and the runs of symbols, frames and delay-line pushes that claims are about.
-/

namespace Sys2Proof.Machine

/-! ### Instructions by what they do -/

/-- The token an instruction pushes, if it pushes one (R186, R530). -/
def tokenOf : Instr → Option Byte
  | .t3 => some 0x03#8
  | .t4 => some 0x04#8
  | .t5 => some 0x05#8
  | .t6 => some 0x06#8
  | .t7 => some 0x07#8
  | .t8 => some 0x08#8
  | .t9 => some 0x09#8
  | .t10 => some 0x0A#8
  | .t11 => some 0x0B#8
  | .tvZero => some 0x00#8
  | .tvShort t => some (0#6 ++ t)
  | .tvLong t => some t
  | .sync => none
  | .symSync0 _ => none
  | .symSync1 _ => none
  | .symData _ => none
  | .symInvalid _ => none
  | .pushTv v => some (v.setWidth 8)
  | .flush _ => none
  | .reset _ _ => none
  | .regRead _ => none
  | .regWrite _ _ => none
  | .popF2 => none
  | .popD24 => none

/-- Is the instruction a RESET (R535)? -/
def isReset : Instr → Bool
  | .t3 => false
  | .t4 => false
  | .t5 => false
  | .t6 => false
  | .t7 => false
  | .t8 => false
  | .t9 => false
  | .t10 => false
  | .t11 => false
  | .tvZero => false
  | .tvShort _ => false
  | .tvLong _ => false
  | .sync => false
  | .symSync0 _ => false
  | .symSync1 _ => false
  | .symData _ => false
  | .symInvalid _ => false
  | .pushTv _ => false
  | .flush _ => false
  | .reset _ _ => true
  | .regRead _ => false
  | .regWrite addr v => addr == 0x000#12 && v.getLsbD 1
  | .popF2 => false
  | .popD24 => false

/-- Does the instruction take a record from an output stream (R536, R537)? -/
def isPop (i : Instr) : Bool := i == .popF2 || i == .popD24

/-! ### Invariants -/

/-- The fatal registers (R33, R572): the cause says whether the halt was raised; without it the two times are 0, and
so they are for Q-mode 3. -/
abbrev FatalInv (s : State) : Prop :=
  (s.fatal = true ↔ s.fatalCause ≠ .none) ∧
    (s.fatalCause = .none ∨ s.fatalCause = .unsupportedQMode3 → s.fatalExpected = 0 ∧ s.fatalActual = 0)

/-- Stage 1 between host actions (R40 to R42, R206, R207, R211): no token 0 is held; at most a lone 11 waits for the
initial sync; otherwise the buffer begins with a sync pattern and is bounded; while an undershoot is probed `tv_und_j`
is the sync pattern that ended a short span; `HandleOvershoot` is never held. -/
def Stage1Inv (st : Stage1) : Prop :=
  (∀ t ∈ st.buf, t ≠ 0) ∧
    match st.state with
    | .expectingInitialSync => st.buf = [] ∨ st.buf = [tvSyncToken]
    | .expectingSync =>
      firstSync st.buf = some 0 ∧ tokenSum st.buf ≤ tvSyncSearchLimit + 22
    | .handleUndershoot =>
      firstSync st.buf = some 0 ∧ tokenSum st.buf ≤ tvSyncSearchLimit + 22 ∧ 2 ≤ st.undJ ∧
        firstSync (st.buf.drop st.undJ) = some 0 ∧ spanTo st.buf st.undJ < tvAcceptMin
    | .handleOvershoot => False

/-- Stage 3 between host actions (R50 to R53): bounds of `f3_acc` and `f3_bad`, and an accumulation exactly while a
section is accumulated. -/
abbrev Stage3Inv (st : Stage3) : Prop :=
  st.acc.length ≤ f3AccumLimit ∧ st.bad ≤ 2 ∧ (st.state = .expectingInitialSync ↔ st.acc = []) ∧
    (st.state = .expectingSync → st.prev = none)

/-- Stage 4 between host actions (R60 to R64): bounds of the buffers, what each phase holds, and which sections
stand in which buffer. -/
abbrev Stage4Inv (st : Stage4) : Prop :=
  st.settle.length < f2cSettleCount ∧ st.pending.length ≤ f2cPendingLimit ∧
    (st.phase = .settle → st.last = none ∧ st.pending = [] ∧ st.dist = 0) ∧
    (st.phase = .steady → st.last.isSome = true ∧ st.settle = []) ∧
    (∀ sec ∈ st.settle, sec.info.isValid = true) ∧ (∀ sec ∈ st.pending, sec.info.isValid = false)

/-- A delay-line set holds exactly `len p` cells on line `p`, and its counter saturates (R70). -/
def DelaySetInv {n : Nat} (len : Fin n → Nat) (longest : Nat) (d : DelaySet n) : Prop :=
  (∀ p : Fin n, d.lines[p].length = len p) ∧ d.count ≤ longest + 1

/-- The delay lines of stage 5 (R70, R71). -/
def Stage5Inv (st : Stage5) : Prop :=
  DelaySetInv dl1Len dl1Max st.dl1 ∧ DelaySetInv dlMLen dlMMax st.dlM ∧ DelaySetInv dl2Len dl2Max st.dl2

/-- Every section the machine holds has 98 frames (R141, R142, R143, R296). -/
def SectionsWhole (s : State) : Prop :=
  (∀ sec ∈ s.f2Out, sec.frames.length = 98) ∧ (∀ sec ∈ s.d24Out, sec.frames.length = 98) ∧
    (∀ sec ∈ s.f2c.settle, sec.frames.length = 98) ∧ (∀ sec ∈ s.f2c.pending, sec.frames.length = 98)

/-! ### Values the rules give, written out -/

/-- Is the byte valid BCD (R153)? -/
def isBcd (b : Byte) : Bool := decide (b.toNat / 16 ≤ 9 ∧ b.toNat % 16 ≤ 9)

/-- The value of a valid BCD byte (R153). -/
def bcdValue (b : Byte) : Nat := 10 * (b.toNat / 16) + b.toNat % 16

/-- `timeOK(m, s, f)` (R477). -/
def isTime (m s f : Byte) : Bool :=
  isBcd m && isBcd s && isBcd f && decide (bcdValue s < 60 ∧ bcdValue f < 75)

/-- The section time of minutes, seconds and frames in BCD (R10, R477). -/
def timeValue (m s f : Byte) : Word := BitVec.ofNat 32 ((bcdValue m * 60 + bcdValue s) * 75 + bcdValue f)

/-- The record of a Q channel of mode 1 or 4, field by field (R477, R482, R483, R485). -/
def timedRecord (q : QChannel) (mode : QMode) (p repaired : Bool) : SectionMeta where
  sectionType := if q[1] = 0x00#8 then .leadIn else if q[1] = 0xAA#8 then .leadOut else .userData
  qMode := mode
  trackNumber := if q[1] = 0xAA#8 then 170#8 else BitVec.ofNat 8 (bcdValue q[1])
  relativeTime := timeValue q[3] q[4] q[5]
  absoluteTime := if q[1] = 0x00#8 then timeValue q[3] q[4] q[5] else timeValue q[7] q[8] q[9]
  catalogue := 0
  pFlag := p
  isValid := true
  isRepaired := repaired
  isAudio := !q[0].getLsbD 6
  isCopyPermitted := q[0].getLsbD 5
  hasPreemphasis := q[0].getLsbD 4
  is4Channel := q[0].getLsbD 7

/-- The record of a Q channel of mode 2, field by field (R478, R483). -/
def catalogueRecord (q : QChannel) (p repaired : Bool) : SectionMeta where
  sectionType := .userData
  qMode := .mode2
  trackNumber := 0
  relativeTime := 0
  absoluteTime := BitVec.ofNat 32 (bcdValue q[9])
  catalogue :=
    q[1].setWidth 52 <<< 44 ||| q[2].setWidth 52 <<< 36 ||| q[3].setWidth 52 <<< 28 ||| q[4].setWidth 52 <<< 20 |||
      q[5].setWidth 52 <<< 12 ||| q[6].setWidth 52 <<< 4 ||| q[7].setWidth 52 >>> 4
  pFlag := p
  isValid := true
  isRepaired := repaired
  isAudio := !q[0].getLsbD 6
  isCopyPermitted := q[0].getLsbD 5
  hasPreemphasis := q[0].getLsbD 4
  is4Channel := q[0].getLsbD 7

/-- A flag as a byte 0 or 1 of a record (R165). -/
def flagByte (b : Bool) : Byte := if b = true then 0x01#8 else 0x00#8

/-- The 30 bytes of a record before its frames, offset by offset (R109, R160, R165). -/
def recordHeader (tag size : Byte) (m : SectionMeta) : List Byte :=
  [ -- 0: tag, frame count, frame size
    tag, 0x00#8, 0x62#8, size,
    -- 4: `section_type`
    match m.sectionType with
      | .leadIn => 0x00#8
      | .leadOut => 0x01#8
      | .userData => 0x02#8,
    -- 5: `relative_time`
    m.relativeTime.extractLsb' 24 8, m.relativeTime.extractLsb' 16 8, m.relativeTime.extractLsb' 8 8,
    m.relativeTime.extractLsb' 0 8,
    -- 9: `absolute_time`
    m.absoluteTime.extractLsb' 24 8, m.absoluteTime.extractLsb' 16 8, m.absoluteTime.extractLsb' 8 8,
    m.absoluteTime.extractLsb' 0 8,
    -- 13: `track_number`, `is_valid`, `is_audio`, `is_copy_permitted`, `has_preemphasis`, `is_4channel`
    m.trackNumber, flagByte m.isValid, flagByte m.isAudio, flagByte m.isCopyPermitted, flagByte m.hasPreemphasis,
    flagByte m.is4Channel,
    -- 19: `catalogue`, 52 bits extended to 64
    0x00#8, m.catalogue.extractLsb' 48 8, m.catalogue.extractLsb' 40 8, m.catalogue.extractLsb' 32 8,
    m.catalogue.extractLsb' 24 8, m.catalogue.extractLsb' 16 8, m.catalogue.extractLsb' 8 8,
    m.catalogue.extractLsb' 0 8,
    -- 27: `q_mode`, `is_repaired`, `p_flag`
    match m.qMode with
      | .none => 0x00#8
      | .mode1 => 0x01#8
      | .mode2 => 0x02#8
      | .mode4 => 0x04#8,
    flagByte m.isRepaired, flagByte m.pFlag ]

/-- Record bytes hold the frames of a section from offset 30 on, each as its data bytes, its error flags and its padded
flags (R165). -/
def HoldsFrames {n : Nat} (bytes : List Byte) (frames : List (Vector Cell n)) : Prop :=
  ∀ (k : Nat) (x : Vector Cell n), frames[k]? = some x → ∀ p : Fin n,
    bytes[30 + 3 * n * k + p.val]? = some x[p].data ∧
    bytes[30 + 3 * n * k + n + p.val]? = some (flagByte x[p].error) ∧
    bytes[30 + 3 * n * k + 2 * n + p.val]? = some (flagByte x[p].padded)

/-- What the sync pattern that ends a span of the tokens `w` makes of stage 1 (R207 to R209): the frames it emits,
its state and the counters. A short span waits for the probe. -/
def closeSpan (w : List Byte) (undJ : Nat) (cnt : Counters) : List ChannelFrame × Stage1 × Counters :=
  if tokenSum w < 551 then ([], ⟨w ++ [0x0B#8, 0x0B#8], .handleUndershoot, w.length⟩, cnt)
  else if tokenSum w ≤ 599 then
    ([channelBits w], ⟨[0x0B#8, 0x0B#8], .expectingSync, undJ⟩,
      bump (if tokenSum w = 588 then .tvFramesExact else .tvFramesTolerated) 1 cnt)
  else if tokenSum w < 1165 then
    ([], ⟨[0x0B#8, 0x0B#8], .expectingSync, undJ⟩,
      bump .tvTokensDiscarded w.length (bump .tvOvershootDiscards 1 cnt))
  else
    ([(channelBits w).take 588, (channelBits w).drop 588], ⟨[0x0B#8, 0x0B#8], .expectingSync, undJ⟩,
      bump .tvFramesSplit 2 cnt)

/-- A boundary of stage 3 (R279): the candidate section `a` and the new start `b` that frame `f` makes after the
accumulated frames, by a `Sync0`, or by a `Sync1` after a frame that is no `Sync0`. -/
def BoundaryAt (acc : List F3Frame) (f : F3Frame) (a b : List F3Frame) : Prop :=
  (f.type = .sync0 ∧ a = acc ∧ b = [f]) ∨
    ∃ l : F3Frame, f.type = .sync1 ∧ l.type ≠ .sync0 ∧ acc = a ++ [l] ∧ b = [l, f]

/-- The sections that a boundary after the frames `a` finishes, if it is not valid: none, the padded section, the pieces
of 98, or the trailing 98 frames (R284, R286, R287, R289, R290). -/
def badBoundarySections (a : List F3Frame) : List (List F3Frame) :=
  if a.length < 94 then []
  else if a.length < 98 then [padSection a]
  else if a.length % 98 = 0 then splitSections a
  else [a.drop (a.length - 98)]

/-- `s3_last_abs` after the sections `secs` were finished in order: the absolute time of the last valid one of Q-mode 1 or
4, or as before (R295). -/
def lastTimeAfter : List F2Section → Option Word → Option Word
  | [], lastAbs => lastAbs
  | sec :: more, lastAbs =>
    lastTimeAfter more
      (if sec.info.isValid = true ∧ (sec.info.qMode = .mode1 ∨ sec.info.qMode = .mode4) then
        some sec.info.absoluteTime
      else lastAbs)

/-- Is the Q channel of a section of mode 3, its CRC matching or repaired (R479)? -/
def isMode3Section (c : Params) (frames : List F3Frame) : Bool :=
  match checkAndRepair c.qCrcInit (assembleQ (frames.map subcodeByte)) with
  | .good q _ => q[0].toNat % 16 == 3
  | .bad => false

/-! ### What FLUSH does stage by stage -/

/-- The tokens of `s` are terminal (R215): an open undershoot is given up, then the tokens left are one frame, if they
follow a sync pattern and their sum is in the window, or are discarded. `s1` is the state when stages 2 to 6 have
run. -/
def TerminalTokens (c : Params) (s s1 : State) : Prop :=
  let gaveUp := s.tv.state = .handleUndershoot
  let buf := if gaveUp then s.tv.buf.drop s.tv.undJ else s.tv.buf
  let cnt := if gaveUp then bump .tvTokensDiscarded s.tv.undJ (bump .tvUndershoots 1 s.cnt) else s.cnt
  if (gaveUp ∨ s.tv.state = .expectingSync) ∧ 551 ≤ tokenSum buf ∧ tokenSum buf ≤ 599 then
    s1 = runStage2 c (channelBits buf)
      { s with
        tv := ⟨[], .expectingInitialSync, 0⟩
        cnt := bump (if tokenSum buf = 588 then .tvFramesExact else .tvFramesTolerated) 1 cnt }
  else s1 = { s with tv := ⟨[], .expectingInitialSync, 0⟩, cnt := bump .tvTokensDiscarded buf.length cnt }

/-- The frames that stage 3 of `s` holds are terminal (R297): exactly 98 accumulated frames are finished as a section,
or raise the halt of R479; any other accumulation is discarded, and so is `f3_prev`. `s1` is the state when stages 4 to
6 have run. -/
def TerminalSection (c : Params) (s s1 : State) : Prop :=
  let prev := if s.f3.prev.isSome then 1 else 0
  if s.f3.state = .expectingSync ∧ s.f3.acc.length = 98 then
    (∀ x sec, finish c s.f3.acc (s.f3, s.cnt) = .ok x sec →
      sec.frames = s.f3.acc.map (fun f => f.cells) ∧
      s1 = runStage4 c sec
        { s with
          f3 := ⟨.expectingInitialSync, [], none, 0, none⟩
          cnt := bump .f3FramesDiscarded prev (bump .f3SectionsExact 1 x.2) }) ∧
    ∀ x info, finish c s.f3.acc (s.f3, s.cnt) = .fatal x info →
      s1 = { s with
        cnt := x.2, fatal := true, fatalCause := .unsupportedQMode3, fatalExpected := 0, fatalActual := 0 }
  else
    s1 = { s with
      f3 := ⟨.expectingInitialSync, [], none, 0, none⟩
      cnt := bump .f3FramesDiscarded (s.f3.acc.length + prev) s.cnt }

/-- The pending sections of `s` are terminal (R348): they go out in order and unchanged, with one Data24 section of the
same metadata for each, a settle run is discarded, and stage 4 is reset; besides, stage 5 is reset (R406). `s1` is the
state after both. -/
def TerminalPending (s s1 : State) : Prop :=
  ∃ (ds : List F1Section) (cnt : Counters),
    s1 = { s with
      f2Out := s.f2Out ++ s.f2c.pending
      d24Out := s.d24Out ++ ds
      f2c := ⟨.settle, [], none, [], 0⟩
      circ := State.reset.circ
      cnt := cnt } ∧
    ds.map (fun d => d.info) = s.f2c.pending.map (fun sec => sec.info) ∧
    cntGet .f2cUnrepairedEmitted cnt = satAdd (cntGet .f2cUnrepairedEmitted s.cnt) s.f2c.pending.length ∧
    cntGet .f2cSettleDiscards cnt = satAdd (cntGet .f2cSettleDiscards s.cnt) s.f2c.settle.length ∧
    cntGet .f2cSectionsOut cnt = satAdd (cntGet .f2cSectionsOut s.cnt) s.f2c.pending.length

/-! ### Runs that claims speak of -/

/-- The 33 symbols of a channel frame in their order: the subcode symbol, then data symbols 0..31 (R135). -/
def frameSymbols (cf : ChannelFrame) : List Symbol :=
  symbolAt cf 27 :: (List.range 32).map fun i => symbolAt cf (44 + 17 * i)

/-- Stage 2 driven by a list of symbols. -/
def takeSymbols (c : Params) (vs : List Symbol) (s : State) : State :=
  vs.foldl (fun s v => takeSymbolCode c (c.efmDecode v) s) s

/-- What a delay-line set lets out over a list of pushes. -/
def dlRun {n : Nat} (len : Fin n → Nat) (longest : Nat) : List (Vector Cell n) → DelaySet n → List (Vector Cell n)
  | [], _ => []
  | v :: vs, d => dlOut len d v :: dlRun len longest vs (dlNext len longest d v)

/-- The F2 byte position that Data24 byte `i` comes from: column "F2 pos p" of R407. -/
def r407Pos (i : Fin 24) : Fin 32 :=
  #v[1, 0, 9, 8, 21, 20, 3, 2, 11, 10, 23, 22, 5, 4, 17, 16, 25, 24, 7, 6, 19, 18, 27, 26][i]

/-- How many frames Data24 byte `i` is late: column T(i) of R407. -/
def r407Latency (i : Fin 24) : Nat :=
  #v[105, 108, 73, 76, 27, 30, 99, 102, 65, 68, 17, 20, 91, 94, 43, 46, 9, 12, 81, 84, 35, 38, 3, 6][i]

end Sys2Proof.Machine
end

