-- ==== Sys2Proof/Certificates/Slice0/Obligations.lean ====
section
/-!
DEFINITION. The statements about the machine, for the provers. A statement about `exec` or `step` is about the
machine's own parameters; one about a stage, the subcode decoder or a register operation holds for every choice `c`
of the OPEN parameters of R9. Entries are rows of notes/assumptions.
-/

open Sys2Proof Sys2Proof.Machine

/-! ### Encoding -/

/-- Decode after encode (R132, R180, R181), with anything following: only a lone `T11` before another token 11 reads
otherwise, as SYNC (entry 3). -/
def Obligations.DecodeAfterEncode : Prop :=
  ∀ (i : Instr) (rest : List PortItem), wellFormed i = true →
    (i = .t11 → ∀ more, rest ≠ .token 0x0B#8 :: more) → decode (encode i ++ rest) = .ok (i, rest)

/-- Encode after decode (R180, R181): what the decoder accepts is the encoding of the well-formed instruction it
answers, so no bit of a host action is dropped. -/
def Obligations.EncodeAfterDecode : Prop :=
  ∀ (items : List PortItem) (i : Instr) (rest : List PortItem), decode items = .ok (i, rest) →
    wellFormed i = true ∧ items = encode i ++ rest

/-- Words written out from the encodings of opcode_table.json decode to their rows. -/
def Obligations.TableWordsDecode : Prop :=
  decodeTableWord 8 0b00000011 = some .t3 ∧ decodeTableWord 8 0b00001011 = some .t11 ∧
    decodeTableWord 8 0b00000000 = some .tvZero ∧ decodeTableWord 8 0b00000010 = some (.tvShort 2#2) ∧
    decodeTableWord 8 0b00001100 = some (.tvLong 12#8) ∧ decodeTableWord 16 0b0000101100001011 = some .sync ∧
    decode [.memWrite 4 0x014#12 0x0000010B#32] = .ok (.pushTv 0x0000010B#32, []) ∧
    decode [.memWrite 4 0x000#12 0b01#32] = .ok (.flush 0#30, []) ∧
    decode [.memWrite 4 0x000#12 0b11#32] = .ok (.reset 0#30 true, [])

/-- R138: EFM_DECODE gives each byte and each sync sentinel for exactly one symbol, and `invalid` for the other
16126. -/
def Obligations.EfmTableHasOneSymbolPerCode : Prop :=
  (∀ b : Byte, ∃! v : Symbol, Config.machine.efmDecode v = .byte b) ∧
    (∃! v : Symbol, Config.machine.efmDecode v = .sync0) ∧ (∃! v : Symbol, Config.machine.efmDecode v = .sync1) ∧
    ∃ l : List Symbol, l.Nodup ∧ l.length = 16126 ∧
      ∀ v : Symbol, v ∈ l ↔ Config.machine.efmDecode v = .invalid

/-! ### Steps -/

/-- A step runs the instruction the ports decode to, on the state without the items it was read from (R6); with no
item waiting it changes nothing (R583, entry 1). -/
def Obligations.StepRunsTheDecodedInstruction : Prop :=
  ∀ s : State,
    (∀ (i : Instr) (rest : List PortItem), decode s.hostIn = .ok (i, rest) →
      step s = exec i { s with hostIn := rest }) ∧
    (s.hostIn = [] → step s = .next s)

/-- R102: a register access that is not 4 bytes wide at a multiple of 4 is refused, at the ports and by the two
instructions themselves, and every other one is run. -/
def Obligations.InadmissibleAccessIsRefused : Prop :=
  (∀ (s : State) (width : Nat) (addr : Addr) (v : Word) (more : List PortItem),
    s.hostIn = .memWrite width addr v :: more ∨ s.hostIn = .memRead width addr :: more →
    if width ≠ 4 then step s = .refused (.accessWidth width)
    else if addr.toNat % 4 ≠ 0 then step s = .refused (.unalignedAccess addr)
    else ∃ s' : State, step s = .next s') ∧
  ∀ (addr : Addr) (v : Word) (s : State), addr.toNat % 4 ≠ 0 →
    exec (.regRead addr) s = .refused (.unalignedAccess addr) ∧
    exec (.regWrite addr v) s = .refused (.unalignedAccess addr)

/-! ### Host commands -/

/-- R532: every register reads as the map says, and an aligned address that names no register reads 0; nothing but the
reply (entry 6) changes. -/
def Obligations.RegReadAnswersTheRegisterMap : Prop :=
  ∀ s : State,
    exec (.regRead 0x000#12) s = .next { s with reply := .word 0 } ∧
    exec (.regRead 0x004#12) s = .next { s with reply := .word (statusWord s) } ∧
    exec (.regRead 0x008#12) s = .next { s with reply := .word (0#16 ++ s.watermark) } ∧
    exec (.regRead 0x00C#12) s = .next { s with reply := .word s.fatalExpected } ∧
    exec (.regRead 0x010#12) s = .next { s with reply := .word s.fatalActual } ∧
    exec (.regRead 0x014#12) s = .next { s with reply := .word 0 } ∧
    exec (.regRead 0x018#12) s = .next { s with reply := .word (outLevelWord s) } ∧
    (∀ k : Counter, exec (.regRead (BitVec.ofNat 12 (0x100 + 4 * k.index.val))) s =
      .next { s with reply := .word (cntGet k s.cnt) }) ∧
    (∀ addr : Addr, addr.toNat % 4 = 0 → 0x01C ≤ addr.toNat ∧ addr.toNat < 0x100 ∨ 0x1B4 ≤ addr.toNat →
      exec (.regRead addr) s = .next { s with reply := .word 0 })

/-- R533 and R538: what a register write does at each address of the map. -/
def Obligations.RegWriteActsByAddress : Prop :=
  ∀ (v : Word) (s : State),
    exec (.regWrite 0x008#12 v) s = .next { s with watermark := v.extractLsb' 0 16 } ∧
    exec (.regWrite 0x014#12 v) s = exec (.pushTv v) s ∧
    exec (.regWrite 0x000#12 v) s =
      (if v.getLsbD 1 = true then exec (.reset (v.extractLsb' 2 30) (v.getLsbD 0)) s
        else if v.getLsbD 0 = true then exec (.flush (v.extractLsb' 2 30)) s
        else .next s) ∧
    (∀ addr : Addr, addr.toNat % 4 = 0 → addr ≠ 0x000#12 → addr ≠ 0x008#12 → addr ≠ 0x014#12 →
      exec (.regWrite addr v) s = .next s)

/-- R172: the fields of STATUS, the reserved ones included, the codes of the cause and of the stages' states written out
(R41, R50, R60, R572); and the two saturating fields of OUT_LEVEL (R174). -/
def Obligations.StatusFieldsShowTheState : Prop :=
  ∀ s : State,
    (statusWord s).extractLsb' 0 1 = BitVec.ofBool s.fatal ∧
    (statusWord s).extractLsb' 1 3 = 0 ∧
    (statusWord s).extractLsb' 4 4 =
      (match s.fatalCause with
        | .none => 0#4
        | .uncorrectableGap => 1#4
        | .unsupportedQMode3 => 2#4
        | .gapTooLarge => 3#4) ∧
    (statusWord s).extractLsb' 8 2 =
      (match s.tv.state with
        | .expectingInitialSync => 0#2
        | .expectingSync => 1#2
        | .handleUndershoot => 2#2
        | .handleOvershoot => 3#2) ∧
    (statusWord s).extractLsb' 10 1 =
      (match s.f3.state with
        | .expectingInitialSync => 0#1
        | .expectingSync => 1#1) ∧
    (statusWord s).extractLsb' 11 2 = 0 ∧
    (statusWord s).extractLsb' 13 1 =
      (match s.f2c.phase with
        | .settle => 0#1
        | .steady => 1#1) ∧
    (statusWord s).extractLsb' 14 1 =
      BitVec.ofBool (decide (1 < s.circ.dl1.count ∧ 108 < s.circ.dlM.count ∧ 2 < s.circ.dl2.count)) ∧
    (statusWord s).extractLsb' 15 1 = 0 ∧
    (statusWord s).extractLsb' 16 8 = BitVec.ofNat 8 s.f2c.pending.length ∧
    (statusWord s).extractLsb' 24 8 = 0 ∧
    ((outLevelWord s).extractLsb' 0 16).toNat = min s.f2Out.length 65535 ∧
    ((outLevelWord s).extractLsb' 16 16).toNat = min s.d24Out.length 65535

/-- R535 with R85: RESET leaves every state element of the spec at its reset value, in every state. The lengths of the
lines of DL2 follow R71's table and not its total of 12 cells (the model's choice, entry 18). -/
def Obligations.ResetLeavesTheResetValues : Prop :=
  ∀ (hi : BitVec 30) (bit0 : Bool) (s : State), ∃ t : State, exec (.reset hi bit0) s = .next t ∧
    t.fatal = false ∧ t.fatalCause = .none ∧ t.fatalExpected = 0 ∧ t.fatalActual = 0 ∧ t.watermark = 5#16 ∧
    t.f2Out = [] ∧ t.d24Out = [] ∧ t.tv = ⟨[], .expectingInitialSync, 0⟩ ∧
    t.f3 = ⟨.expectingInitialSync, [], none, 0, none⟩ ∧ t.f2c = ⟨.settle, [], none, [], 0⟩ ∧
    t.circ.dl1.count = 0 ∧ t.circ.dlM.count = 0 ∧ t.circ.dl2.count = 0 ∧
    (∀ p : Fin 32, t.circ.dl1.lines[p] = List.replicate (p.val % 2) ⟨0, false, false⟩) ∧
    (∀ p : Fin 28, t.circ.dlM.lines[p] = List.replicate (108 - 4 * p.val) ⟨0, false, false⟩) ∧
    (∀ o : Fin 24, t.circ.dl2.lines[o] = List.replicate (if o.val % 8 < 4 then 0 else 2) ⟨0, false, false⟩) ∧
    (∀ k : Counter, cntGet k t.cnt = 0)

/-- R536 and R537: a pop takes the oldest record and answers its serialization, or answers Empty; nothing else
changes. -/
def Obligations.PopsTakeTheOldestRecord : Prop :=
  ∀ s : State,
    exec .popF2 s =
      (match s.f2Out with
        | [] => .next { s with reply := .empty }
        | sec :: rest => .next { s with f2Out := rest, reply := .record (serializeF2 sec) }) ∧
    exec .popD24 s =
      (match s.d24Out with
        | [] => .next { s with reply := .empty }
        | sec :: rest => .next { s with d24Out := rest, reply := .record (serializeD24 sec) })

/-- R165: the layout of a record. An F2 section of 98 frames is 9438 bytes and a Data24 section 7086; every byte of the
30 before the frames is the one its offset names, and each frame is its data bytes, then its error flags, then its padded
flags. -/
def Obligations.RecordsHaveTheirLayout : Prop :=
  ∀ (f : F2Section) (d : F1Section), f.frames.length = 98 → d.frames.length = 98 →
    (serializeF2 f).length = 9438 ∧ (serializeF2 f).take 30 = recordHeader 0xF2#8 32#8 f.info ∧
    HoldsFrames (serializeF2 f) f.frames ∧
    (serializeD24 d).length = 7086 ∧ (serializeD24 d).take 30 = recordHeader 0xD4#8 24#8 d.info ∧
    HoldsFrames (serializeD24 d) d.frames

/-- Serialization loses nothing (R109, R165): two F2 sections of 98 frames with the same record are equal, and so are
two Data24 sections. -/
def Obligations.RecordsDetermineTheirSections : Prop :=
  (∀ a b : F2Section, a.frames.length = 98 → b.frames.length = 98 → serializeF2 a = serializeF2 b → a = b) ∧
    (∀ a b : F1Section, a.frames.length = 98 → b.frames.length = 98 → serializeD24 a = serializeD24 b → a = b)

/-- R530: a write to TV_DATA does what the row of its low byte does, and bits 31..8 are ignored. -/
def Obligations.PushTvRunsTheRowOfItsLowByte : Prop :=
  ∀ (v : Word) (s : State), exec (.pushTv v) s = exec (tokenInstr (v.extractLsb' 0 8)) s

/-- R531: while FATAL = 1 a token only counts as rejected. -/
def Obligations.TokensAreRejectedWhileFatal : Prop :=
  ∀ (i : Instr) (t : Byte) (s : State), tokenOf i = some t → s.fatal = true →
    exec i s = .next { s with cnt := bump .hostTokensRejected 1 s.cnt }

/-- Every token row and PUSH_TV completes when the block is not halted (R200): the token is counted, and counted out
of range exactly outside 3..11; stage 1 ends as its loop leaves it, whatever the later stages do with its frames
(entry 11); a token 0 is discarded, counted so, and changes nothing but the counters (R131); the watermark, the reply, the
host's waiting actions, the symbol frame and the counter of rejected tokens stay, and so do the fatal registers unless a
unit it releases raises the fatal halt. -/
def Obligations.TokensAreTakenAndCounted : Prop :=
  ∀ (i : Instr) (t : Byte) (s : State), tokenOf i = some t → s.fatal = false →
    ∃ s' : State, exec i s = .next s' ∧ s'.tv = (stage1Take t s.tv s.cnt).st ∧
      cntGet .tvTokensIn s'.cnt = satAdd (cntGet .tvTokensIn s.cnt) 1 ∧
      cntGet .tvTokensOutOfRange s'.cnt =
        (if 3 ≤ t.toNat ∧ t.toNat ≤ 11 then cntGet .tvTokensOutOfRange s.cnt
          else satAdd (cntGet .tvTokensOutOfRange s.cnt) 1) ∧
      (t = 0 →
        s'.tv = s.tv ∧ cntGet .tvTokensDiscarded s'.cnt = satAdd (cntGet .tvTokensDiscarded s.cnt) 1 ∧
        s' = { s with cnt := s'.cnt }) ∧
      cntGet .hostTokensRejected s'.cnt = cntGet .hostTokensRejected s.cnt ∧
      s'.watermark = s.watermark ∧ s'.reply = s.reply ∧ s'.hostIn = s.hostIn ∧ s'.sym = s.sym ∧
      (s'.fatal = false →
        s'.fatalCause = s.fatalCause ∧ s'.fatalExpected = s.fatalExpected ∧ s'.fatalActual = s.fatalActual)

/-- SYNC is the tokens `T11 T11` (R186), in every state. -/
def Obligations.SyncIsTwoTokensEleven : Prop :=
  ∀ s : State, ∃ t u : State, exec .t11 s = .next t ∧ exec .t11 t = .next u ∧ exec .sync s = .next u

/-- SYNC on an empty buffer in initial sync enters `ExpectingSync` with the pattern held (R206), and nothing but
stage 1 and the token counter changes. -/
def Obligations.SyncEntersExpectingSync : Prop :=
  ∀ s : State, s.fatal = false → s.tv.state = .expectingInitialSync → s.tv.buf = [] →
    ∃ t : State, exec .sync s = .next t ∧ t.tv = ⟨[0x0B#8, 0x0B#8], .expectingSync, s.tv.undJ⟩ ∧
      (∀ k : Counter, cntGet k t.cnt = if k = .tvTokensIn then satAdd (cntGet k s.cnt) 2 else cntGet k s.cnt) ∧
      t = { s with tv := t.tv, cnt := t.cnt }

/-! ### Stage 1 -/

/-- R201: a token t >= 1 expands to `1` and t - 1 zeros, a token sequence to the expansions of its tokens one after the
other, so piece by piece and to as many bits as its values sum to. -/
def Obligations.TokensExpandToTheirRunLengths : Prop :=
  (∀ t : Byte, t ≠ 0 → expand t = true :: List.replicate (t.toNat - 1) false) ∧
    channelBits [] = [] ∧ (∀ (t : Byte) (ts : List Byte), channelBits (t :: ts) = expand t ++ channelBits ts) ∧
    (∀ ts : List Byte, (channelBits ts).length = tokenSum ts) ∧
    (∀ a b : List Byte, channelBits (a ++ b) = channelBits a ++ channelBits b) ∧
    channelBits [3#8, 4#8] = [true, false, false, true, false, false, false]

/-- R202: `findSync(s, from)` is the smallest index at or after `from` where two tokens 11 stand in a row, or
`none`. -/
def Obligations.FindSyncIsLeftmost : Prop :=
  ∀ (s : List Byte) (start : Nat),
    (∀ i : Nat, findSync s start = some i ↔
      start ≤ i ∧ s[i]? = some 0x0B#8 ∧ s[i + 1]? = some 0x0B#8 ∧
        ∀ k : Nat, start ≤ k → k < i → ¬ (s[k]? = some 0x0B#8 ∧ s[k + 1]? = some 0x0B#8)) ∧
    (findSync s start = none ↔
      ∀ k : Nat, start ≤ k → ¬ (s[k]? = some 0x0B#8 ∧ s[k + 1]? = some 0x0B#8))

/-- R205: the stage loop ends because a rule says `wait`, whatever the buffer; the bound on the loop's length (entry
12) is never what stops it. -/
def Obligations.StageOneLoopEndsByWaiting : Prop :=
  ∀ (t : Byte) (st : Stage1) (cnt : Counters), (stage1Take t st cnt).again = false

/-- R214: every frame stage 1 emits, by a token or by the flush, is 551 to 599 bits long. -/
def Obligations.ChannelFramesAreInTheWindow : Prop :=
  ∀ (t : Byte) (st : Stage1) (cnt : Counters),
    (∀ cf ∈ (stage1Take t st cnt).frames, 551 ≤ cf.length ∧ cf.length ≤ 599) ∧
    (∀ cf ∈ (stage1Flush st cnt).frames, 551 ≤ cf.length ∧ cf.length ≤ 599)

/-- The token that completes the next sync pattern in `ExpectingSync` closes a span (R207 to R209): in [551,599] it is
one frame, exact or tolerated; shorter it is probed; in [1165,1187] it is split in two; otherwise its tokens are
discarded (`closeSpan`). -/
def Obligations.SyncPatternClosesTheSpan : Prop :=
  ∀ (w : List Byte) (undJ : Nat) (cnt : Counters),
    firstSync w = some 0 → findSync (w ++ [0x0B#8]) 2 = none → tokenSum w ≤ 1187 →
    let r := stage1Take 0x0B#8 ⟨w ++ [0x0B#8], .expectingSync, undJ⟩ cnt
    (r.frames, r.st, r.cnt) = closeSpan w undJ (bump .tvTokensIn 1 cnt)

/-- R211 and R213: how an undershoot probe ends. When the probed boundary completes, directly after the false sync or
later, a merged span in [551,599] is one merged frame that keeps the false sync as data; out of that range the short
span is discarded and the span from the false sync on is classified afresh by R207. Without a boundary the probe waits
up to the search limit; past it the short span is discarded, and with the bits left past the limit too the sync is lost
(R212). -/
def Obligations.UndershootProbeResolvesTheSpan : Prop :=
  ∀ (w : List Byte) (j : Nat) (cnt : Counters), j + 2 ≤ w.length →
    (findSync (w ++ [0x0B#8]) (j + 2) = none → tokenSum w ≤ 1187 →
      let r := stage1Take 0x0B#8 ⟨w ++ [0x0B#8], .handleUndershoot, j⟩ cnt
      (r.frames, r.st, r.cnt) =
        if 551 ≤ tokenSum w ∧ tokenSum w ≤ 599 then
          ([channelBits w], ⟨[0x0B#8, 0x0B#8], .expectingSync, j⟩,
            bump .tvUndershootFixups 1 (bump .tvTokensIn 1 cnt))
        else closeSpan (w.drop j) j (bump .tvTokensDiscarded j (bump .tvUndershoots 1 (bump .tvTokensIn 1 cnt)))) ∧
    ∀ t : Byte, t ≠ 0 → findSync (w ++ [t]) (j + 2) = none →
      let r := stage1Take t ⟨w, .handleUndershoot, j⟩ cnt
      let held := if t = 0x0B#8 then 1 else 0
      r.frames = [] ∧
      (r.st, r.cnt) =
        if tokenSum (w ++ [t]) - 11 * held ≤ 1187 then (⟨w ++ [t], .handleUndershoot, j⟩, countToken t cnt)
        else if tokenSum (w.drop j ++ [t]) - 11 * held ≤ 1187 then
          (⟨w.drop j ++ [t], .expectingSync, j⟩,
            bump .tvTokensDiscarded j (bump .tvUndershoots 1 (countToken t cnt)))
        else
          (⟨List.replicate held 0x0B#8, .expectingInitialSync, j⟩,
            bump .tvLostSync 1 (bump .tvTokensDiscarded (w.length + 1 - held)
              (bump .tvUndershoots 1 (countToken t cnt))))

/-- R212: with no sync pattern within the search limit everything but a trailing 11 is discarded and stage 1 drops to
initial sync. -/
def Obligations.SearchLimitDropsToInitialSync : Prop :=
  ∀ (w : List Byte) (t : Byte) (undJ : Nat) (cnt : Counters),
    t ≠ 0 → findSync (w ++ [t]) 2 = none →
    1187 < tokenSum (w ++ [t]) - (if t = 0x0B#8 then 11 else 0) →
    let r := stage1Take t ⟨w, .expectingSync, undJ⟩ cnt
    r.frames = [] ∧
      r.st = ⟨if t = 0x0B#8 then [0x0B#8] else [], .expectingInitialSync, undJ⟩ ∧
      cntGet .tvLostSync r.cnt = satAdd (cntGet .tvLostSync cnt) 1 ∧
      cntGet .tvTokensDiscarded r.cnt =
        satAdd (cntGet .tvTokensDiscarded cnt) (if t = 0x0B#8 then w.length else w.length + 1)

/-- Stage 1's invariant (R40 to R42, R206, R207, R211) is kept by every step of the machine, from every state. -/
def Obligations.StepKeepsStageOneInvariant : Prop :=
  ∀ s s' : State, Stage1Inv s.tv → step s = .next s' → Stage1Inv s'.tv

/-! ### Stage 2 -/

/-- The value of a symbol is the sum of its channel bits, the first in time with weight 2^13 (R13, R250). -/
def Obligations.SymbolValueIsTheSumOfItsBits : Prop :=
  ∀ (cf : ChannelFrame) (a : Nat),
    (symbolAt cf a).toNat = ((List.range 14).map fun k => (cf.getD (a + k) false).toNat * 2 ^ (13 - k)).sum

/-- R255: the missing symbols of a frame of 551 or more bits are flagged error bytes 0x00 and counted: 30 and 31 up to
567 bits, 31 up to 584 bits, none from 585 bits on. -/
def Obligations.ShortFramesMissTheLastSymbols : Prop :=
  ∀ (c : Params) (cf : ChannelFrame) (cnt : Counters), 551 ≤ cf.length →
    cntGet .efmMissingSymbols (stage2Convert c cf cnt).2 =
      satAdd (cntGet .efmMissingSymbols cnt) (if cf.length ≤ 567 then 2 else if cf.length ≤ 584 then 1 else 0) ∧
    (cf.length ≤ 584 → (stage2Convert c cf cnt).1.cells[31] = ⟨0x00#8, true, false⟩) ∧
    (cf.length ≤ 567 → (stage2Convert c cf cnt).1.cells[30] = ⟨0x00#8, true, false⟩)

/-- Feeding stage 2 the 33 symbols of a channel frame one by one gives the state that converting the frame gives, for
a frame with all its symbols (R135, R250; the symbol-by-symbol drive is the model's choice, entry 5). -/
def Obligations.SymbolsOfAFrameMatchItsConversion : Prop :=
  ∀ (c : Params) (cf : ChannelFrame) (s : State), 585 ≤ cf.length → s.fatal = false → s.sym = none →
    takeSymbols c (frameSymbols cf) s = runStage2 c cf s

/-- The symbol rows in the subcode slot (R251; the drive by symbols is the model's choice, entry 5): the frame type,
the subcode error bit and its counter; nothing else changes. -/
def Obligations.SubcodeSymbolsSetTheFrameType : Prop :=
  ∀ (v : Symbol) (s : State), s.fatal = false → s.sym = none →
    exec (.symSync0 v) s = .next { s with sym := some ⟨.sync0, false, []⟩ } ∧
    exec (.symSync1 v) s = .next { s with sym := some ⟨.sync1, false, []⟩ } ∧
    (∀ b : Byte, Config.machine.efmDecode v = .byte b →
      exec (.symData v) s = .next { s with sym := some ⟨.subcode b, false, []⟩ }) ∧
    exec (.symInvalid v) s =
      .next { s with sym := some ⟨.subcode 0x00#8, true, []⟩, cnt := bump .efmSubcodeErrors 1 s.cnt }

/-- The symbol rows in a data slot (R254; the drive by symbols is the model's choice, entry 5): a data byte is stored
unflagged, any other class is an error byte 0x00 and counted. Before the 32nd data symbol nothing else changes; with it
the frame is complete and goes to stage 3. -/
def Obligations.DataSymbolsFillTheFrame : Prop :=
  ∀ (v : Symbol) (i : Instr) (cell : Cell) (cnt' : Counters) (p : PartialFrame) (s : State),
    s.fatal = false → s.sym = some p → p.cells.length ≤ 31 →
    ((∃ b : Byte, Config.machine.efmDecode v = .byte b ∧ i = .symData v ∧ cell = ⟨b, false, false⟩ ∧ cnt' = s.cnt) ∨
      ((i = .symSync0 v ∨ i = .symSync1 v ∨ i = .symInvalid v) ∧ cell = ⟨0x00#8, true, false⟩ ∧
        cnt' = bump .efmDataSymbolErrors 1 s.cnt)) →
    exec i s = .next
      (if p.cells.length < 31 then { s with sym := some { p with cells := p.cells ++ [cell] }, cnt := cnt' }
        else runStage3 Config.machine (frameOfCells { p with cells := p.cells ++ [cell] })
          { s with sym := none, cnt := cnt' })

/-! ### Stage 3 -/

/-- R287 and R288: the padded section of 94 to 97 received frames has 98 frames, error frames exactly at 4, 6, ..., one
for each missing frame, and the received frames in order in the other places. An error frame is 32 bytes 0x00 with the
error flag and without the padded flag, of type `Subcode(0x00)` with the subcode error bit. -/
def Obligations.PadsStandAtTheirIndices : Prop :=
  ∀ a : List F3Frame, 94 ≤ a.length → a.length ≤ 97 →
    (padSection a).length = 98 ∧
    ∀ x : Nat, x < 98 →
      (padSection a)[x]? =
        (if 4 ≤ x ∧ x % 2 = 0 ∧ (x - 4) / 2 < 98 - a.length then
          some ⟨Vector.replicate 32 ⟨0x00#8, true, false⟩, .subcode 0x00#8, true⟩
          else a[x - min (98 - a.length) ((x - 3) / 2)]?)

/-- R289: an accumulation of a multiple of 98 frames is cut into consecutive pieces of 98 frames that lose none. -/
def Obligations.SplitSectionsLoseNoFrame : Prop :=
  ∀ a : List F3Frame, a.length % 98 = 0 →
    (splitSections a).flatten = a ∧ ∀ piece ∈ splitSections a, piece.length = 98

/-- The third bad boundary in a row drops stage 3 to initial sync (R291, R292), for each kind of bad boundary and each
frame that makes one (R279): the sections of the boundary, if it makes any (R287, R289, R290), are emitted first and
counted; then the frames of the new start, or all frames held where the boundary was discarded (R286), are discarded, and
`s3_last_abs` is kept as the emitted sections leave it (R292, R295). Only a section of Q-mode 3 prevents it: the halt is
raised before the drop (R479). -/
def Obligations.ThirdBadBoundaryLosesSync : Prop :=
  ∀ (c : Params) (f : F3Frame) (a b : List F3Frame) (st : Stage3) (cnt : Counters),
    st.state = .expectingSync → st.bad = 2 → BoundaryAt st.acc f a b → a.length ≠ 98 →
    let n := a.length
    if (badBoundarySections a).any (isMode3Section c) = true then
      ∃ x : S3, stage3Take c f (st, cnt) = .fatal x ⟨.unsupportedQMode3, 0, 0⟩ ∧
        x.1 = { st with lastAbs := x.1.lastAbs } ∧ cntGet .f3LostSync x.2 = cntGet .f3LostSync cnt
    else
      ∃ (x : S3) (secs : List F2Section), stage3Take c f (st, cnt) = .ok x secs ∧
        x.1 = ⟨.expectingInitialSync, [], none, 0, lastTimeAfter secs st.lastAbs⟩ ∧
        secs.map (fun sec => sec.frames) = (badBoundarySections a).map (fun piece => piece.map fun f => f.cells) ∧
        cntGet .f3FramesIn x.2 = satAdd (cntGet .f3FramesIn cnt) 1 ∧
        cntGet .f3LostSync x.2 = satAdd (cntGet .f3LostSync cnt) 1 ∧
        cntGet .f3SectionsExact x.2 = cntGet .f3SectionsExact cnt ∧
        cntGet .f3BoundariesDiscarded x.2 = satAdd (cntGet .f3BoundariesDiscarded cnt) (if n < 94 then 1 else 0) ∧
        cntGet .f3SectionsPadded x.2 =
          satAdd (cntGet .f3SectionsPadded cnt) (if 94 ≤ n ∧ n < 98 then 1 else 0) ∧
        cntGet .f3FramesInserted x.2 =
          satAdd (cntGet .f3FramesInserted cnt) (if 94 ≤ n ∧ n < 98 then 98 - n else 0) ∧
        cntGet .f3SectionsSplit x.2 =
          satAdd (cntGet .f3SectionsSplit cnt) (if 98 < n ∧ n % 98 = 0 then n / 98 else 0) ∧
        cntGet .f3OvershootTrims x.2 =
          satAdd (cntGet .f3OvershootTrims cnt) (if 98 < n ∧ n % 98 ≠ 0 then 1 else 0) ∧
        cntGet .f3FramesDiscarded x.2 =
          satAdd (cntGet .f3FramesDiscarded cnt)
            ((if n < 94 then n else if 98 < n ∧ n % 98 ≠ 0 then n - 98 else 0) + b.length)

/-- Stage 3's invariant (R50 to R53) is kept by every step of the machine, from every state. -/
def Obligations.StepKeepsStageThreeInvariant : Prop :=
  ∀ s s' : State, Stage3Inv s.f3 → step s = .next s' → Stage3Inv s'.f3

/-! ### Subcode decoder -/

/-- R472: Q bit i is bit 6 of the subcode byte of frame 2 + i, and stands in bit 7 - i mod 8 of byte i div 8. -/
def Obligations.QBitsAreAssembledMsbFirst : Prop :=
  ∀ (sub : List Byte) (k : Fin 12) (j : Nat), j < 8 →
    ((assembleQ sub)[k]).getLsbD (7 - j) = (sub.getD (2 + (8 * k.val + j)) 0).getLsbD 6

/-- R474 and R486: a Q channel whose CRC matches is returned as it is, and counted; for such a channel, (a) one flip of the bits 0..79 is repaired to it; (b) one flip of a CRC
bit and (c) two flips anywhere are not repaired, and the metadata is invalid. For every initial value of the CRC. -/
def Obligations.SingleBitRepairIsExact : Prop :=
  ∀ (init : BitVec 16) (q0 : QChannel), crcOK init q0 = true →
    checkAndRepair init q0 = .good q0 false ∧
    (∀ (sub : List Byte) (cnt : Counters), assembleQ sub = q0 →
      (∀ cnt' m, fromData init sub cnt = .ok cnt' m → cntGet .qCrcOk cnt' = satAdd (cntGet .qCrcOk cnt) 1) ∧
      ∀ cnt' info, fromData init sub cnt = .fatal cnt' info → cntGet .qCrcOk cnt' = satAdd (cntGet .qCrcOk cnt) 1) ∧
    (∀ i : Fin 96, i.val < 80 → checkAndRepair init (flipQBit q0 i) = .good q0 true) ∧
    (∀ i : Fin 96, 80 ≤ i.val → ∀ (sub : List Byte) (cnt : Counters), assembleQ sub = flipQBit q0 i →
      fromData init sub cnt = .ok (bump .qCrcFail 1 cnt) (invalidMeta (pFlagOf sub))) ∧
    (∀ i j : Fin 96, i ≠ j → ∀ (sub : List Byte) (cnt : Counters), assembleQ sub = flipQBit (flipQBit q0 i) j →
      fromData init sub cnt = .ok (bump .qCrcFail 1 cnt) (invalidMeta (pFlagOf sub)))

/-- The mode dispatch and the field decode (R476 to R478, R480 to R483, R485): what `decodeQ` answers for every Q
channel, with each field of a record read from its bytes; and every record it answers is plausible (R11, R160): valid, of
Q-mode 1, 2 or 4, both times in 0..449999, and the track number 0..99 or 170. -/
def Obligations.DecodedRecordsHoldTheirFields : Prop :=
  ∀ (q : QChannel) (p repaired : Bool),
    (let adr := q[0].toNat % 16
      let timed := (isBcd q[1] ∨ q[1] = 0xAA#8) ∧ isTime q[3] q[4] q[5] ∧ (q[1] = 0x00#8 ∨ isTime q[7] q[8] q[9])
      let numbered := (∀ k : Fin 6, isBcd q[k.val + 1]) ∧ q[7].toNat / 16 ≤ 9 ∧ isBcd q[9] ∧ bcdValue q[9] < 75
      decodeQ q p repaired =
        if adr = 1 ∧ timed then .record (timedRecord q .mode1 p repaired)
        else if adr = 4 ∧ timed then .record (timedRecord q .mode4 p repaired)
        else if adr = 2 ∧ numbered then .record (catalogueRecord q p repaired)
        else if adr = 3 then .mode3
        else .rejected) ∧
    ∀ m : SectionMeta, decodeQ q p repaired = .record m →
      m.isValid = true ∧ m.isRepaired = repaired ∧ m.pFlag = p ∧ m.qMode ≠ .none ∧
      (0 ≤ m.absoluteTime.toInt ∧ m.absoluteTime.toInt ≤ 449999) ∧
      (0 ≤ m.relativeTime.toInt ∧ m.relativeTime.toInt ≤ 449999) ∧
      (m.trackNumber.toNat ≤ 99 ∨ m.trackNumber = 170#8)

/-- R479: a Q channel of mode 3 whose CRC matches, or is repaired, halts the block when its section is finished: the
fatal registers hold the cause and two times 0, the section is not emitted, and the records already out stay. -/
def Obligations.QModeThreeHaltsTheBlock : Prop :=
  ∀ (c : Params) (frames : List F3Frame) (q : QChannel) (repaired : Bool) (rest : S3 → S3) (s : State),
    checkAndRepair c.qCrcInit (assembleQ (frames.map subcodeByte)) = .good q repaired → q[0].toNat % 16 = 3 →
    settleStage3 c (finishThen c [frames] rest (s.f3, s.cnt)) s =
      { s with
        cnt := bump (if repaired then .qRepaired else .qCrcOk) 1 s.cnt
        fatal := true
        fatalCause := .unsupportedQMode3
        fatalExpected := 0
        fatalActual := 0 }

/-! ### Stage 4 -/

/-- R335: the fifth consecutive valid section ends the settle phase, and all five are emitted in order. -/
def Obligations.FifthConsecutiveSectionSettles : Prop :=
  ∀ (c : Params) (w : BitVec 16) (sec l : F2Section) (st : Stage4) (cnt : Counters),
    st.phase = .settle → st.settle.length = 4 → st.settle.getLast? = some l →
    sec.info.isValid = true → sec.info.qMode ≠ .mode2 → absOf sec.info = absOf l.info + 1 →
    stage4Take c w sec (st, cnt) =
      .ok (⟨.steady, [], some sec.info, [], 0⟩, bump .f2cSectionsIn 1 cnt) (st.settle ++ [sec])

/-- R338: in the steady phase a Q-mode 2 section is moved to the second of the expected time, with its own frame
remainder; nothing else of it changes, and no section of another Q-mode changes. -/
def Obligations.ModeTwoTakesTheExpectedSecond : Prop :=
  ∀ (c : Params) (expected : Int) (sec : F2Section), 0 ≤ expected → expected ≤ 2147483573 →
    (sec.info.qMode = .mode2 →
      absOf (correctMode2 c expected sec).info = expected - expected % 75 + absOf sec.info % 75 ∧
      absOf (correctMode2 c expected sec).info / 75 = expected / 75 ∧
      correctMode2 c expected sec =
        { sec with info := { sec.info with absoluteTime := (correctMode2 c expected sec).info.absoluteTime } }) ∧
    (sec.info.qMode ≠ .mode2 → correctMode2 c expected sec = sec)

/-- R342: a late valid section after invalid ones halts the block with the expected and the actual time, and nothing is
emitted. `sec'` is the section with a Q-mode 2 time corrected (R338). -/
def Obligations.UncorrectableGapHaltsTheBlock : Prop :=
  ∀ (c : Params) (sec sec' : F2Section) (l : SectionMeta) (s : State),
    s.f2c.phase = .steady → s.f2c.last = some l → sec.info.isValid = true →
    sec' = correctMode2 c (absOf l + s.f2c.dist.toNat + 1) sec →
    s.f2c.dist ≠ 0 → absOf l + s.f2c.dist.toNat + 1 < absOf sec'.info →
    ∃ t : State, runStage4 c sec s = t ∧
      t = { s with
        cnt := bump .f2cSectionsIn 1 s.cnt
        fatal := true
        fatalCause := .uncorrectableGap
        fatalExpected := BitVec.ofInt 32 (absOf l + s.f2c.dist.toNat + 1)
        fatalActual := sec'.info.absoluteTime } ∧
      t.fatalExpected.toInt = absOf l + s.f2c.dist.toNat + 1

/-- R341: a valid section before its expected time is dropped and counted, and nothing else changes. `sec'` is the
section with a Q-mode 2 time corrected (R338). -/
def Obligations.OutOfOrderSectionIsDropped : Prop :=
  ∀ (c : Params) (sec sec' : F2Section) (l : SectionMeta) (s : State),
    s.f2c.phase = .steady → s.f2c.last = some l → sec.info.isValid = true →
    sec' = correctMode2 c (absOf l + s.f2c.dist.toNat + 1) sec →
    absOf sec'.info < absOf l + s.f2c.dist.toNat + 1 →
    runStage4 c sec s = { s with cnt := bump .f2cOutOfOrderDrops 1 (bump .f2cSectionsIn 1 s.cnt) }

/-- R343 to R347: what a late valid section does when no invalid section came before it, by the gap bound and the
watermark: the halt, or one synthetic section for each missing time slot and then the section. `sec'` is the section
with a Q-mode 2 time corrected (R338). -/
def Obligations.GapIsFilledOrHalts : Prop :=
  ∀ (c : Params) (w : BitVec 16) (sec sec' : F2Section) (l : SectionMeta) (st : Stage4) (cnt : Counters) (g : Nat),
    st.phase = .steady → st.last = some l → st.dist = 0 → sec.info.isValid = true →
    sec' = correctMode2 c (absOf l + 1) sec → 0 < g → absOf sec'.info = absOf l + 1 + g →
    if (∃ m, c.maxGap = some m ∧ m < g) then
      stage4Take c w sec (st, cnt) =
        .fatal (st, bump .f2cSectionsIn 1 cnt)
          ⟨.gapTooLarge, BitVec.ofInt 32 (absOf l + 1), sec'.info.absoluteTime⟩
    else
      ∃ fill : List F2Section,
        stage4Take c w sec (st, cnt) =
          .ok ({ st with last := some sec'.info },
            bump (if g ≤ w.toNat then .f2cGapErrorSections else .f2cGapPaddingSections) g
              (bump .f2cSectionsIn 1 cnt)) (fill ++ [sec']) ∧
        fill.length = g ∧
        ∀ (r : Nat) (x : F2Section), fill[r]? = some x →
          absOf x.info = absOf l + 1 + r ∧
          (l.relativeTime.toInt + 1 + r < 2147483648 → x.info.relativeTime.toInt = l.relativeTime.toInt + 1 + r) ∧
          x.info = { l with
            absoluteTime := x.info.absoluteTime
            relativeTime := x.info.relativeTime
            isValid := true
            isRepaired := true } ∧
          x.frames.length = 98 ∧
          ∀ f ∈ x.frames, ∀ p : Fin 32,
            f[p] = if g ≤ w.toNat then ⟨0x00#8, true, false⟩
              else ⟨if 12 ≤ p.val ∧ p.val < 16 ∨ 28 ≤ p.val then 0xFF#8 else 0x00#8, false, true⟩

/-- What stage 4 emits for a valid section in the steady phase. All of it is valid and takes consecutive time slots up to
that section (R339, R344, R349): the k-th emitted section stands k slots after the first pending one. A section on time
comes out after the pending ones, which are repaired (R339, R340): their frames are untouched, and their records are that
of the last section, moved to their slot, valid and repaired, with their own P flag; none is pending then. `sec'` is the
section with a Q-mode 2 time corrected (R338). -/
def Obligations.EmittedSectionsTakeTheirSlots : Prop :=
  ∀ (c : Params) (w : BitVec 16) (sec sec' : F2Section) (l : SectionMeta) (st : Stage4) (cnt : Counters),
    st.phase = .steady → st.last = some l → st.pending.length ≤ st.dist.toNat → sec.info.isValid = true →
    sec' = correctMode2 c (absOf l + st.dist.toNat + 1) sec →
    (∀ (x : S4) (out : List F2Section), stage4Take c w sec (st, cnt) = .ok x out →
      ∀ (k : Nat) (y : F2Section), out[k]? = some y →
        absOf y.info = absOf l + st.dist.toNat - st.pending.length + 1 + k ∧ y.info.isValid = true ∧
        (k + 1 = out.length → x.1.last = some y.info)) ∧
    (absOf sec'.info = absOf l + st.dist.toNat + 1 →
      ∃ repaired : List F2Section,
        stage4Take c w sec (st, cnt) =
          .ok ({ st with last := some sec'.info, dist := 0, pending := [] },
            bump .f2cInterpolated st.pending.length (bump .f2cSectionsIn 1 cnt)) (repaired ++ [sec']) ∧
        repaired.map (fun y => y.frames) = st.pending.map (fun y => y.frames) ∧
        ∀ (k : Nat) (y z : F2Section), repaired[k]? = some y → st.pending[k]? = some z →
          y.info = { l with
            absoluteTime := y.info.absoluteTime
            relativeTime := y.info.relativeTime
            isValid := true
            isRepaired := true
            pFlag := z.info.pFlag } ∧
          absOf y.info = absOf l + (st.dist.toNat - st.pending.length + 1 + k) ∧
          (l.relativeTime.toInt + (st.dist.toNat - st.pending.length + 1 + k) < 2147483648 →
            y.info.relativeTime.toInt = l.relativeTime.toInt + (st.dist.toNat - st.pending.length + 1 + k)))

/-- A clean stream (R335, R339, the end-to-end property of R331 and R405): from a fresh settle phase five or more
valid sections with consecutive times all come out, unchanged and in order, with one Data24 section of the same
metadata for each, and nothing halts. -/
def Obligations.CleanStreamComesOutWhole : Prop :=
  ∀ (c : Params) (secs : List F2Section) (t0 : Int) (s : State),
    s.fatal = false → s.f2c = ⟨.settle, [], none, [], 0⟩ → 5 ≤ secs.length →
    (∀ (k : Nat) (sec : F2Section), secs[k]? = some sec →
      sec.info.isValid = true ∧ sec.info.qMode ≠ .mode2 ∧ absOf sec.info = t0 + k) →
    ∃ ds : List F1Section,
      (runAll (runStage4 c) secs s).f2Out = s.f2Out ++ secs ∧
      (runAll (runStage4 c) secs s).d24Out = s.d24Out ++ ds ∧
      ds.map (fun d => d.info) = secs.map (fun sec => sec.info) ∧
      (runAll (runStage4 c) secs s).fatal = false

/-- Stage 4's invariant (R60 to R64) is kept by every step of the machine, from every state. -/
def Obligations.StepKeepsStageFourInvariant : Prop :=
  ∀ s s' : State, Stage4Inv s.f2c → step s = .next s' → Stage4Inv s'.f2c

/-! ### Stages 5 and 6 -/

/-- R392: a cell comes out of line p exactly `len p` pushes after it went in, for a set of any lengths. -/
def Obligations.DelayLinesDelayByTheirLength : Prop :=
  ∀ (n : Nat) (len : Fin n → Nat) (longest : Nat) (d : DelaySet n) (vs : List (Vector Cell n)),
    (∀ p : Fin n, d.lines[p].length = len p) →
    (dlRun len longest vs d).length = vs.length ∧
    ∀ (p : Fin n) (k : Nat) (v w : Vector Cell n), vs[k]? = some v → (dlRun len longest vs d)[k + len p]? = some w →
      w[p] = v[p]

/-- R396 and R399: what a Reed-Solomon pass writes back: on `Ok` the corrected bytes with the error flags clear, on
`Fail` the received bytes with the error flags set; the padded flags stay (R408). -/
def Obligations.ReedSolomonPassesWriteBack : Prop :=
  (∀ (c : Params) (w : Vector Cell 32) (p : Fin 32),
    (c1Decode c w)[p] =
      match c.rsC1 (w.map fun cl => cl.data) (w.map fun cl => cl.error) with
      | some cw => ⟨cw[p], false, w[p].padded⟩
      | none => ⟨w[p].data, true, w[p].padded⟩) ∧
    ∀ (c : Params) (w : Vector Cell 28) (p : Fin 28),
      (c2Decode c w)[p] =
        match c.rsC2 (w.map fun cl => cl.data) (w.map fun cl => cl.error) with
        | some cw => ⟨cw[p], false, w[p].padded⟩
        | none => ⟨w[p].data, true, w[p].padded⟩

/-- R394: after reset or flush the first 111 frames are placeholders, counted as lost, and no later frame is. -/
def Obligations.PrimingGivesExactly111Placeholders : Prop :=
  ∀ (c : Params) (frames : List F2Frame) (cnt : Counters),
    (decodeFrames c frames (stage5Flush, cnt)).1.length = frames.length ∧
    (∀ (k : Nat) (y : F1Frame), k < 111 → (decodeFrames c frames (stage5Flush, cnt)).1[k]? = some y →
      y = placeholder) ∧
    cntGet .circLostFrames (decodeFrames c frames (stage5Flush, cnt)).2.2 =
      satAdd (cntGet .circLostFrames cnt) (min 111 frames.length)

/-- R407: with decoders that return the bytes unchanged and the default deinterleave, byte i of the Data24 frame made
from genuine frame f comes, with its padded flag, from byte p of F2 frame f - T(i). Frames are numbered from 0 here. The
latencies are those of R407's own table, which holds with the DL2 lengths of R71's table (entry 18). -/
def Obligations.DataComesOutAtItsLatency : Prop :=
  ∀ (c : Params) (frames : List F2Frame) (cnt : Counters),
    (∀ cw e, c.rsC1 cw e = some cw) → (∀ cw e, c.rsC2 cw e = some cw) →
    c.deinterleave = Config.deinterleaveDefault →
    ∀ (k : Nat) (y : F1Frame) (i : Fin 24) (x : F2Frame), 111 ≤ k →
      (decodeFrames c frames (stage5Flush, cnt)).1[k]? = some y →
      frames[k - r407Latency i]? = some x →
      (unswap y)[i].data = x[r407Pos i].data ∧ (unswap y)[i].padded = x[r407Pos i].padded ∧
      (unswap y)[i].error = false

/-- R451, R452 and R455: stage 6 swaps every byte pair with its flags, swapping twice gives the frame back, and the
numbers of error and padded bytes stay. -/
def Obligations.UnswapExchangesBytePairs : Prop :=
  ∀ x : F1Frame,
    (∀ i j : Fin 24, j.val = i.val ^^^ 1 → (unswap x)[i] = x[j]) ∧
    unswap (unswap x) = x ∧ errorBytes (unswap x) = errorBytes x ∧ paddedBytes (unswap x) = paddedBytes x

/-- The delay lines keep their lengths and their saturated counts (R70, R71, for DL2 its table: the model's choice, entry
18) over every step of the machine, from every state. -/
def Obligations.StepKeepsDelayLineLengths : Prop :=
  ∀ s s' : State, Stage5Inv s.circ → step s = .next s' → Stage5Inv s'.circ

/-! ### The whole machine -/

/-- Every section the machine holds has 98 frames (R141 to R143, R296), kept by every step, from every state. -/
def Obligations.StepKeepsSectionsWhole : Prop :=
  ∀ s s' : State, SectionsWhole s → step s = .next s' → SectionsWhole s'

/-- The fatal registers agree with each other (R33, R572), kept by every step, from every state. -/
def Obligations.StepKeepsFatalRegistersConsistent : Prop :=
  ∀ s s' : State, FatalInv s → step s = .next s' → FatalInv s'

/-- The invariants hold right after reset. -/
def Obligations.InvariantsHoldAtReset : Prop :=
  FatalInv State.reset ∧ Stage1Inv State.reset.tv ∧ Stage3Inv State.reset.f3 ∧ Stage4Inv State.reset.f2c ∧
    Stage5Inv State.reset.circ ∧ SectionsWhole State.reset

/-- R578: while FATAL = 1 an instruction other than RESET leaves the fatal registers and every stage as they are: only
the counter of rejected tokens, the watermark, the reply and the popped queue can change. A single symbol changes
nothing at all (entry 5). -/
def Obligations.FatalStateIsSticky : Prop :=
  ∀ (i : Instr) (s : State), s.fatal = true → isReset i = false →
    (∀ s' : State, exec i s = .next s' →
      s' = { s with
        cnt := s'.cnt, watermark := s'.watermark, reply := s'.reply, f2Out := s'.f2Out, d24Out := s'.d24Out } ∧
      ∀ k : Counter, k ≠ .hostTokensRejected → cntGet k s'.cnt = cntGet k s.cnt) ∧
    ((∃ v, i = .symSync0 v ∨ i = .symSync1 v ∨ i = .symData v ∨ i = .symInvalid v) → exec i s = .next s)

/-- R534: FLUSH completes; while fatal it is ignored; otherwise it releases the terminal units of stage 1 (R215), of
stage 3 (R297) and of stage 4 (R348), each run through the later stages before the next flush, and stops at a unit that
raises the fatal halt. Without that halt every stage is in its reset state afterwards and the fatal registers are as
before; the watermark, the reply and the waiting actions are kept always. -/
def Obligations.FlushReleasesTheTerminalUnits : Prop :=
  ∀ (hi : BitVec 30) (s : State), ∃ t : State, exec (.flush hi) s = .next t ∧
    (s.fatal = true → t = s) ∧
    (s.fatal = false → ∃ s1 : State, TerminalTokens Config.machine s s1 ∧
      (s1.fatal = true → t = s1) ∧
      (s1.fatal = false → ∃ s3 : State, TerminalSection Config.machine { s1 with sym := none } s3 ∧
        (s3.fatal = true → t = s3) ∧ (s3.fatal = false → TerminalPending s3 t))) ∧
    (t.fatal = false →
      t.tv = ⟨[], .expectingInitialSync, 0⟩ ∧ t.f3 = ⟨.expectingInitialSync, [], none, 0, none⟩ ∧
      t.f2c = ⟨.settle, [], none, [], 0⟩ ∧ t.circ = State.reset.circ ∧ t.sym = none ∧
      t.fatalCause = s.fatalCause ∧ t.fatalExpected = s.fatalExpected ∧ t.fatalActual = s.fatalActual) ∧
    t.watermark = s.watermark ∧ t.reply = s.reply ∧ t.hostIn = s.hostIn

/-- R114 with R331, R390, R405, R450, R454: an instruction other than a pop or RESET only appends to the output
queues, and for each F2 section it appends one Data24 section with the same metadata, in the same order; also when it
ends in the fatal halt. -/
def Obligations.OutputQueuesGrowInPairs : Prop :=
  ∀ (i : Instr) (s s' : State), isReset i = false → isPop i = false → exec i s = .next s' →
    ∃ (fs : List F2Section) (ds : List F1Section), s'.f2Out = s.f2Out ++ fs ∧ s'.d24Out = s.d24Out ++ ds ∧
      ds.map (fun d => d.info) = fs.map (fun f => f.info)

/-- The host's own registers have one writer each: the watermark changes only by a REG_WRITE to CONFIG or by RESET
(R34, R533, R535), the reply (entry 6) only by a read, a pop or RESET, and no instruction takes the actions that wait
(entry 1), RESET included, which clears the reply and the symbol frame (entry 14). -/
def Obligations.HostStateHasItsWriters : Prop :=
  (∀ (i : Instr) (s s' : State), isReset i = false → exec i s = .next s' →
    s'.hostIn = s.hostIn ∧
    ((∀ v, i ≠ .regWrite 0x008#12 v) → s'.watermark = s.watermark) ∧
    ((∀ addr, i ≠ .regRead addr) → isPop i = false → s'.reply = s.reply)) ∧
  ∀ (hi : BitVec 30) (bit0 : Bool) (s : State), ∃ t : State, exec (.reset hi bit0) s = .next t ∧
    t.hostIn = s.hostIn ∧ t.reply = .none ∧ t.sym = none
end

