-- ==== Sys2Proof/Laws/Counters.lean ====
section
/-!
SUPPORT. The counters: what saturating addition and `bump` do, and that distinct counters stand in distinct places.
-/

namespace Sys2Proof.Machine

/-- The counters 0 to 21 of R175. -/
def Counter.firstHalf : List Counter :=
  [.tvTokensIn, .tvTokensDiscarded, .tvTokensOutOfRange, .tvFramesExact, .tvFramesTolerated, .tvFramesSplit,
    .tvUndershootFixups, .tvUndershoots, .tvOvershootDiscards, .tvLostSync, .efmDataSymbolErrors,
    .efmSubcodeErrors, .efmMissingSymbols, .f3FramesIn, .f3FramesDiscarded, .f3SectionsExact, .f3SectionsPadded,
    .f3FramesInserted, .f3BoundariesDiscarded, .f3SectionsSplit, .f3OvershootTrims, .f3LostSync]

/-- The counters 22 to 44 of R175. -/
def Counter.secondHalf : List Counter :=
  [.qCrcOk, .qRepaired, .qCrcFail, .qRejected, .qJumpInvalidated, .f2cSectionsIn, .f2cSettleDiscards,
    .f2cOutOfOrderDrops, .f2cInterpolated, .f2cGapErrorSections, .f2cGapPaddingSections, .f2cUnrepairedEmitted,
    .f2cSectionsOut, .circFramesIn, .circLostFrames, .c1Ok, .c1Fail, .c2Ok, .c2Fail, .d24FramesOut,
    .d24ErrorBytes, .d24PaddedBytes, .hostTokensRejected]

/-- The counters in the order of R175. -/
def Counter.all : List Counter := Counter.firstHalf ++ Counter.secondHalf

/-- The counter numbered `k` in R175 is the `k`-th of the list. -/
theorem Counter.all_index (k : Counter) : Counter.all[k.index.val]? = some k := by cases k <;> rfl

/-- Distinct counters have distinct numbers. -/
theorem Counter.index_injective {j k : Counter} (h : j.index.val = k.index.val) : j = k := by
  have hj := Counter.all_index j
  rw [h, Counter.all_index k] at hj
  exact (Option.some.inj hj).symm

/-! ### Saturating addition (R11) -/

/-- The value of a saturating sum. -/
theorem satAdd_toNat (w : Word) (n : Nat) : (satAdd w n).toNat = min (w.toNat + n) 0xFFFFFFFF := by
  unfold satAdd
  rw [BitVec.toNat_ofNat]
  exact Nat.mod_eq_of_lt (by omega)

@[simp] theorem satAdd_zero (w : Word) : satAdd w 0 = w := by
  apply BitVec.eq_of_toNat_eq
  rw [satAdd_toNat]
  have := w.isLt
  omega

/-- Saturating sums compose. -/
@[simp] theorem satAdd_satAdd (w : Word) (m n : Nat) : satAdd (satAdd w m) n = satAdd w (m + n) := by
  apply BitVec.eq_of_toNat_eq
  rw [satAdd_toNat, satAdd_toNat, satAdd_toNat]
  omega

/-! ### One counter (R80) -/

@[simp] theorem cntGet_bump_self (k : Counter) (n : Nat) (cs : Counters) :
    cntGet k (bump k n cs) = satAdd (cntGet k cs) n := by
  simp [cntGet, bump]

@[simp] theorem cntGet_bump_ne {j k : Counter} (h : j ≠ k) (n : Nat) (cs : Counters) :
    cntGet j (bump k n cs) = cntGet j cs := by
  have : k.index.val ≠ j.index.val := fun e => h (Counter.index_injective e.symm)
  simp [cntGet, bump, this]

/-- The whole of what `bump` does to a counter. -/
theorem cntGet_bump (j k : Counter) (n : Nat) (cs : Counters) :
    cntGet j (bump k n cs) = if j = k then satAdd (cntGet j cs) n else cntGet j cs := by
  by_cases h : j = k
  · subst h; simp
  · simp [h]

/-- Two counter vectors with the same counters are equal. -/
theorem counters_ext {a b : Counters} (h : ∀ k : Counter, cntGet k a = cntGet k b) : a = b := by
  apply Vector.ext
  intro i hi
  have hk : ∃ k : Counter, k.index.val = i := by
    have : ∀ m : Fin 45, ∃ k : Counter, k.index = m := by
      intro m
      refine ⟨Counter.all.getD m.val .tvTokensIn, ?_⟩
      revert m
      decide
    obtain ⟨k, hk⟩ := this ⟨i, hi⟩
    exact ⟨k, by rw [hk]⟩
  obtain ⟨k, rfl⟩ := hk
  exact h k

@[simp] theorem bump_zero (k : Counter) (cs : Counters) : bump k 0 cs = cs :=
  counters_ext fun j => by by_cases h : j = k <;> simp [h]

/-- Adding to one counter twice is adding once. -/
@[simp] theorem bump_bump (k : Counter) (m n : Nat) (cs : Counters) :
    bump k n (bump k m cs) = bump k (m + n) cs :=
  counters_ext fun j => by by_cases h : j = k <;> simp [h]

/-- Additions to two counters can be done in either order. -/
theorem bump_comm {j k : Counter} (h : j ≠ k) (m n : Nat) (cs : Counters) :
    bump j m (bump k n cs) = bump k n (bump j m cs) := by
  apply counters_ext
  intro i
  simp only [cntGet_bump]
  by_cases hj : i = j <;> by_cases hk : i = k <;> simp_all

end Sys2Proof.Machine
end

