-- ==== Sys2Proof/Laws/Decode.lean ====
section
/-!
SUPPORT. One lemma for each arm of the decoder, and the bits of the CTRL command words.
-/

namespace Sys2Proof

@[simp] theorem decode_nil : decode [] = .error .noInput := rfl

@[simp] theorem decode_symbol (v : Symbol) (rest : List PortItem) :
    decode (.symbol v :: rest) = .ok (symbolInstrWith Config.machine v, rest) := rfl

@[simp] theorem decode_popF2 (rest : List PortItem) : decode (.popF2 :: rest) = .ok (.popF2, rest) := rfl

@[simp] theorem decode_popD24 (rest : List PortItem) : decode (.popD24 :: rest) = .ok (.popD24, rest) := rfl

@[simp] theorem decode_sync (rest : List PortItem) :
    decode (.token 0x0B#8 :: .token 0x0B#8 :: rest) = .ok (.sync, rest) := rfl

/-- A token that is not the first of a sync pattern is read alone. -/
theorem decode_token {a : Byte} {rest : List PortItem}
    (h : ∀ more, ¬ (a = 0x0B#8 ∧ rest = .token 0x0B#8 :: more)) :
    decode (.token a :: rest) = .ok (tokenInstr a, rest) := by
  cases rest with
  | nil => rfl
  | cons x more =>
    cases x with
    | token b =>
      by_cases hab : a = 0x0B#8 ∧ b = 0x0B#8
      · exact absurd ⟨hab.1, by rw [hab.2]⟩ (h more)
      · simp [decode, decodeWith, hab]
    | symbol v => rfl
    | memWrite w ad v => rfl
    | memRead w ad => rfl
    | popF2 => rfl
    | popD24 => rfl

/-- An admitted register write is read by its address and value (R102). -/
theorem decode_memWrite {addr : Addr} (h : addr.toNat % 4 = 0) (v : Word) (rest : List PortItem) :
    decode (.memWrite 4 addr v :: rest) = .ok (writeInstr addr v, rest) := by
  simp [decode, decodeWith, accessError, h]

/-- An admitted register read is read by its address (R102). -/
theorem decode_memRead {addr : Addr} (h : addr.toNat % 4 = 0) (rest : List PortItem) :
    decode (.memRead 4 addr :: rest) = .ok (.regRead addr, rest) := by
  simp [decode, decodeWith, accessError, h]

/-- Bits 31..2 of a CTRL word. -/
@[simp] theorem controlWord_hi (hi : BitVec 30) (lo : BitVec 2) : (hi ++ lo).extractLsb' 2 30 = hi := by
  apply BitVec.eq_of_getLsbD_eq
  intro i h
  rw [BitVec.getLsbD_extractLsb', BitVec.getLsbD_append (x := hi) (y := lo) (i := 2 + i), if_neg (by omega)]
  simp [h]

/-- Bits 1..0 of a CTRL word. -/
theorem controlWord_lo (hi : BitVec 30) (lo : BitVec 2) {i : Nat} (h : i < 2) :
    (hi ++ lo).getLsbD i = lo.getLsbD i := by
  rw [BitVec.getLsbD_append (x := hi) (y := lo) (i := i), if_pos h]

/-- A CTRL word put together again from its fields. -/
theorem controlWord_eta (v : Word) : (v.extractLsb' 2 30 ++ v.extractLsb' 0 2 : BitVec 32) = v := by
  apply BitVec.eq_of_getLsbD_eq
  intro i hi
  rw [BitVec.getLsbD_append (x := v.extractLsb' 2 30) (y := v.extractLsb' 0 2) (i := i)]
  by_cases h : i < 2
  · simp [h]
  · simp [h, show i - 2 < 30 by omega, show 2 + (i - 2) = i by omega]

end Sys2Proof
end

