-- ==== Sys2Proof/Laws/PerInstr.lean ====
section
/-!
SUPPORT. A statement made for each instruction: the shape of its encoding at the ports.
-/

namespace Sys2Proof

/-- How many port items the encoding of an instruction is: SYNC is two tokens, every other one a single item
(R132, R180). -/
def Laws.PortShape.items (i : Instr) : Nat := if i = .sync then 2 else 1

/-- Is a register access of this item 4 bytes wide (R102)? Other items are no register access. -/
def Laws.PortShape.wholeAccess : PortItem → Bool
  | .token _ => true
  | .symbol _ => true
  | .memWrite width _ _ => width == 4
  | .memRead width _ => width == 4
  | .popF2 => true
  | .popD24 => true

/-- The encoding of an instruction has as many port items as its row says, and every register access in it is 4 bytes
wide. -/
def Laws.PortShape.Statement (i : Instr) : Prop :=
  (encode i).length = Laws.PortShape.items i ∧ (encode i).all Laws.PortShape.wholeAccess = true

theorem Laws.PortShape.t3 : Laws.PortShape.Statement .t3 := ⟨rfl, rfl⟩
theorem Laws.PortShape.t4 : Laws.PortShape.Statement .t4 := ⟨rfl, rfl⟩
theorem Laws.PortShape.t5 : Laws.PortShape.Statement .t5 := ⟨rfl, rfl⟩
theorem Laws.PortShape.t6 : Laws.PortShape.Statement .t6 := ⟨rfl, rfl⟩
theorem Laws.PortShape.t7 : Laws.PortShape.Statement .t7 := ⟨rfl, rfl⟩
theorem Laws.PortShape.t8 : Laws.PortShape.Statement .t8 := ⟨rfl, rfl⟩
theorem Laws.PortShape.t9 : Laws.PortShape.Statement .t9 := ⟨rfl, rfl⟩
theorem Laws.PortShape.t10 : Laws.PortShape.Statement .t10 := ⟨rfl, rfl⟩
theorem Laws.PortShape.t11 : Laws.PortShape.Statement .t11 := ⟨rfl, rfl⟩
theorem Laws.PortShape.tvZero : Laws.PortShape.Statement .tvZero := ⟨rfl, rfl⟩
theorem Laws.PortShape.tvShort (t : BitVec 2) : Laws.PortShape.Statement (.tvShort t) := ⟨rfl, rfl⟩
theorem Laws.PortShape.tvLong (t : Byte) : Laws.PortShape.Statement (.tvLong t) := ⟨rfl, rfl⟩
theorem Laws.PortShape.sync : Laws.PortShape.Statement .sync := ⟨rfl, rfl⟩
theorem Laws.PortShape.symSync0 (v : Symbol) : Laws.PortShape.Statement (.symSync0 v) := ⟨rfl, rfl⟩
theorem Laws.PortShape.symSync1 (v : Symbol) : Laws.PortShape.Statement (.symSync1 v) := ⟨rfl, rfl⟩
theorem Laws.PortShape.symData (v : Symbol) : Laws.PortShape.Statement (.symData v) := ⟨rfl, rfl⟩
theorem Laws.PortShape.symInvalid (v : Symbol) : Laws.PortShape.Statement (.symInvalid v) := ⟨rfl, rfl⟩
theorem Laws.PortShape.pushTv (v : Word) : Laws.PortShape.Statement (.pushTv v) := ⟨rfl, rfl⟩
theorem Laws.PortShape.flush (hi : BitVec 30) : Laws.PortShape.Statement (.flush hi) := ⟨rfl, rfl⟩
theorem Laws.PortShape.reset (hi : BitVec 30) (bit0 : Bool) : Laws.PortShape.Statement (.reset hi bit0) :=
  ⟨rfl, rfl⟩
theorem Laws.PortShape.regRead (addr : Addr) : Laws.PortShape.Statement (.regRead addr) := ⟨rfl, rfl⟩
theorem Laws.PortShape.regWrite (addr : Addr) (v : Word) : Laws.PortShape.Statement (.regWrite addr v) :=
  ⟨rfl, rfl⟩
theorem Laws.PortShape.popF2 : Laws.PortShape.Statement .popF2 := ⟨rfl, rfl⟩
theorem Laws.PortShape.popD24 : Laws.PortShape.Statement .popD24 := ⟨rfl, rfl⟩

end Sys2Proof
end

