-- ==== Sys2Proof/Laws/State.lean ====
section
/-!
SUPPORT. The fields of State after each named update: one lemma for each field, true by unfolding, so that no proof
unfolds a record update.
-/

namespace Sys2Proof.Machine

/-! ### The fatal halt (R575) -/

@[simp] theorem raiseFatal_fatal (i : FatalInfo) (s : State) : (raiseFatal i s).fatal = true := rfl
@[simp] theorem raiseFatal_fatalCause (i : FatalInfo) (s : State) : (raiseFatal i s).fatalCause = i.cause := rfl
@[simp] theorem raiseFatal_fatalExpected (i : FatalInfo) (s : State) : (raiseFatal i s).fatalExpected = i.expected := rfl
@[simp] theorem raiseFatal_fatalActual (i : FatalInfo) (s : State) : (raiseFatal i s).fatalActual = i.actual := rfl
@[simp] theorem raiseFatal_watermark (i : FatalInfo) (s : State) : (raiseFatal i s).watermark = s.watermark := rfl
@[simp] theorem raiseFatal_f2Out (i : FatalInfo) (s : State) : (raiseFatal i s).f2Out = s.f2Out := rfl
@[simp] theorem raiseFatal_d24Out (i : FatalInfo) (s : State) : (raiseFatal i s).d24Out = s.d24Out := rfl
@[simp] theorem raiseFatal_tv (i : FatalInfo) (s : State) : (raiseFatal i s).tv = s.tv := rfl
@[simp] theorem raiseFatal_f3 (i : FatalInfo) (s : State) : (raiseFatal i s).f3 = s.f3 := rfl
@[simp] theorem raiseFatal_f2c (i : FatalInfo) (s : State) : (raiseFatal i s).f2c = s.f2c := rfl
@[simp] theorem raiseFatal_circ (i : FatalInfo) (s : State) : (raiseFatal i s).circ = s.circ := rfl
@[simp] theorem raiseFatal_cnt (i : FatalInfo) (s : State) : (raiseFatal i s).cnt = s.cnt := rfl
@[simp] theorem raiseFatal_sym (i : FatalInfo) (s : State) : (raiseFatal i s).sym = s.sym := rfl
@[simp] theorem raiseFatal_reply (i : FatalInfo) (s : State) : (raiseFatal i s).reply = s.reply := rfl
@[simp] theorem raiseFatal_hostIn (i : FatalInfo) (s : State) : (raiseFatal i s).hostIn = s.hostIn := rfl

/-! ### RESET (R535) -/

@[simp] theorem resetMachine_fatal (s : State) : (resetMachine s).fatal = State.reset.fatal := rfl
@[simp] theorem resetMachine_fatalCause (s : State) : (resetMachine s).fatalCause = State.reset.fatalCause := rfl
@[simp] theorem resetMachine_fatalExpected (s : State) : (resetMachine s).fatalExpected = State.reset.fatalExpected := rfl
@[simp] theorem resetMachine_fatalActual (s : State) : (resetMachine s).fatalActual = State.reset.fatalActual := rfl
@[simp] theorem resetMachine_watermark (s : State) : (resetMachine s).watermark = State.reset.watermark := rfl
@[simp] theorem resetMachine_f2Out (s : State) : (resetMachine s).f2Out = State.reset.f2Out := rfl
@[simp] theorem resetMachine_d24Out (s : State) : (resetMachine s).d24Out = State.reset.d24Out := rfl
@[simp] theorem resetMachine_tv (s : State) : (resetMachine s).tv = State.reset.tv := rfl
@[simp] theorem resetMachine_f3 (s : State) : (resetMachine s).f3 = State.reset.f3 := rfl
@[simp] theorem resetMachine_f2c (s : State) : (resetMachine s).f2c = State.reset.f2c := rfl
@[simp] theorem resetMachine_circ (s : State) : (resetMachine s).circ = State.reset.circ := rfl
@[simp] theorem resetMachine_cnt (s : State) : (resetMachine s).cnt = State.reset.cnt := rfl
@[simp] theorem resetMachine_sym (s : State) : (resetMachine s).sym = State.reset.sym := rfl
@[simp] theorem resetMachine_reply (s : State) : (resetMachine s).reply = State.reset.reply := rfl
@[simp] theorem resetMachine_hostIn (s : State) : (resetMachine s).hostIn = s.hostIn := rfl

/-! ### The fetch word (entry 2) -/

@[simp] theorem withFetchWord_fatal (s : State) (nbits w : Nat) : (s.withFetchWord nbits w).fatal = s.fatal := rfl
@[simp] theorem withFetchWord_fatalCause (s : State) (nbits w : Nat) : (s.withFetchWord nbits w).fatalCause = s.fatalCause := rfl
@[simp] theorem withFetchWord_fatalExpected (s : State) (nbits w : Nat) : (s.withFetchWord nbits w).fatalExpected = s.fatalExpected := rfl
@[simp] theorem withFetchWord_fatalActual (s : State) (nbits w : Nat) : (s.withFetchWord nbits w).fatalActual = s.fatalActual := rfl
@[simp] theorem withFetchWord_watermark (s : State) (nbits w : Nat) : (s.withFetchWord nbits w).watermark = s.watermark := rfl
@[simp] theorem withFetchWord_f2Out (s : State) (nbits w : Nat) : (s.withFetchWord nbits w).f2Out = s.f2Out := rfl
@[simp] theorem withFetchWord_d24Out (s : State) (nbits w : Nat) : (s.withFetchWord nbits w).d24Out = s.d24Out := rfl
@[simp] theorem withFetchWord_tv (s : State) (nbits w : Nat) : (s.withFetchWord nbits w).tv = s.tv := rfl
@[simp] theorem withFetchWord_f3 (s : State) (nbits w : Nat) : (s.withFetchWord nbits w).f3 = s.f3 := rfl
@[simp] theorem withFetchWord_f2c (s : State) (nbits w : Nat) : (s.withFetchWord nbits w).f2c = s.f2c := rfl
@[simp] theorem withFetchWord_circ (s : State) (nbits w : Nat) : (s.withFetchWord nbits w).circ = s.circ := rfl
@[simp] theorem withFetchWord_cnt (s : State) (nbits w : Nat) : (s.withFetchWord nbits w).cnt = s.cnt := rfl
@[simp] theorem withFetchWord_sym (s : State) (nbits w : Nat) : (s.withFetchWord nbits w).sym = s.sym := rfl
@[simp] theorem withFetchWord_reply (s : State) (nbits w : Nat) : (s.withFetchWord nbits w).reply = s.reply := rfl
@[simp] theorem withFetchWord_hostIn (s : State) (nbits w : Nat) : (s.withFetchWord nbits w).hostIn = tableItems nbits w := rfl

/-! ### Flush of stage 2 (entry 5) -/

@[simp] theorem flushStage2_fatal (s : State) : (flushStage2 s).fatal = s.fatal := rfl
@[simp] theorem flushStage2_fatalCause (s : State) : (flushStage2 s).fatalCause = s.fatalCause := rfl
@[simp] theorem flushStage2_fatalExpected (s : State) : (flushStage2 s).fatalExpected = s.fatalExpected := rfl
@[simp] theorem flushStage2_fatalActual (s : State) : (flushStage2 s).fatalActual = s.fatalActual := rfl
@[simp] theorem flushStage2_watermark (s : State) : (flushStage2 s).watermark = s.watermark := rfl
@[simp] theorem flushStage2_f2Out (s : State) : (flushStage2 s).f2Out = s.f2Out := rfl
@[simp] theorem flushStage2_d24Out (s : State) : (flushStage2 s).d24Out = s.d24Out := rfl
@[simp] theorem flushStage2_tv (s : State) : (flushStage2 s).tv = s.tv := rfl
@[simp] theorem flushStage2_f3 (s : State) : (flushStage2 s).f3 = s.f3 := rfl
@[simp] theorem flushStage2_f2c (s : State) : (flushStage2 s).f2c = s.f2c := rfl
@[simp] theorem flushStage2_circ (s : State) : (flushStage2 s).circ = s.circ := rfl
@[simp] theorem flushStage2_cnt (s : State) : (flushStage2 s).cnt = s.cnt := rfl
@[simp] theorem flushStage2_sym (s : State) : (flushStage2 s).sym = none := rfl
@[simp] theorem flushStage2_reply (s : State) : (flushStage2 s).reply = s.reply := rfl
@[simp] theorem flushStage2_hostIn (s : State) : (flushStage2 s).hostIn = s.hostIn := rfl

/-! ### Flush of stage 5 (R406) -/

@[simp] theorem flushStage5_fatal (s : State) : (flushStage5 s).fatal = s.fatal := rfl
@[simp] theorem flushStage5_fatalCause (s : State) : (flushStage5 s).fatalCause = s.fatalCause := rfl
@[simp] theorem flushStage5_fatalExpected (s : State) : (flushStage5 s).fatalExpected = s.fatalExpected := rfl
@[simp] theorem flushStage5_fatalActual (s : State) : (flushStage5 s).fatalActual = s.fatalActual := rfl
@[simp] theorem flushStage5_watermark (s : State) : (flushStage5 s).watermark = s.watermark := rfl
@[simp] theorem flushStage5_f2Out (s : State) : (flushStage5 s).f2Out = s.f2Out := rfl
@[simp] theorem flushStage5_d24Out (s : State) : (flushStage5 s).d24Out = s.d24Out := rfl
@[simp] theorem flushStage5_tv (s : State) : (flushStage5 s).tv = s.tv := rfl
@[simp] theorem flushStage5_f3 (s : State) : (flushStage5 s).f3 = s.f3 := rfl
@[simp] theorem flushStage5_f2c (s : State) : (flushStage5 s).f2c = s.f2c := rfl
@[simp] theorem flushStage5_circ (s : State) : (flushStage5 s).circ = stage5Flush := rfl
@[simp] theorem flushStage5_cnt (s : State) : (flushStage5 s).cnt = s.cnt := rfl
@[simp] theorem flushStage5_sym (s : State) : (flushStage5 s).sym = s.sym := rfl
@[simp] theorem flushStage5_reply (s : State) : (flushStage5 s).reply = s.reply := rfl
@[simp] theorem flushStage5_hostIn (s : State) : (flushStage5 s).hostIn = s.hostIn := rfl

/-! ### Updates of a section -/

@[simp] theorem withAbs_frames (c : Params) (t : Int) (sec : F2Section) : (withAbs c t sec).frames = sec.frames := rfl
@[simp] theorem withAbs_isValid (c : Params) (t : Int) (sec : F2Section) :
    (withAbs c t sec).info.isValid = sec.info.isValid := rfl
@[simp] theorem withAbs_qMode (c : Params) (t : Int) (sec : F2Section) :
    (withAbs c t sec).info.qMode = sec.info.qMode := rfl
@[simp] theorem withAbs_absoluteTime (c : Params) (t : Int) (sec : F2Section) :
    (withAbs c t sec).info.absoluteTime = storeTime c t := rfl
@[simp] theorem invalidMeta_isValid (p : Bool) : (invalidMeta p).isValid = false := rfl
@[simp] theorem stage6Take_info (sec : F1Section) (cnt : Counters) : (stage6Take sec cnt).1.info = sec.info := rfl
@[simp] theorem stage5Take_info (c : Params) (sec : F2Section) (x : S5) : (stage5Take c sec x).1.info = sec.info := rfl
@[simp] theorem synthetic_frames (c : Params) (frame : F2Frame) (l : SectionMeta) (t : Int) :
    (synthetic c frame l t).frames = List.replicate 98 frame := rfl

end Sys2Proof.Machine
end

