-- ==== Sys2Proof/Laws/Pipeline.lean ====
section
/-!
SUPPORT. What the pipeline can do: the run of a list of units, what a section does on its way through stages 5 and 6,
and one principle that carries a property of the state through every host action (`PipelineKeeps`, `exec_keeps`,
`step_keeps`).
-/

namespace Sys2Proof.Machine

/-! ### Running a list of units (R6, R575) -/

@[simp] theorem runAll_nil {α : Type} (run : α → State → State) (s : State) : runAll run [] s = s := rfl

/-- The fatal halt stops a run: nothing more happens. -/
theorem runAll_of_fatal {α : Type} (run : α → State → State) (xs : List α) {s : State} (h : s.fatal = true) :
    runAll run xs s = s := by
  cases xs <;> simp [runAll, h]

/-- Without the halt the first unit runs, then the others. -/
theorem runAll_cons {α : Type} (run : α → State → State) (x : α) (xs : List α) {s : State} (h : s.fatal = false) :
    runAll run (x :: xs) s = runAll run xs (run x s) := by
  simp [runAll, h]

/-- A run in two parts. -/
theorem runAll_append {α : Type} (run : α → State → State) (xs ys : List α) (s : State) :
    runAll run (xs ++ ys) s = runAll run ys (runAll run xs s) := by
  induction xs generalizing s with
  | nil => rfl
  | cons x xs ih =>
    cases h : s.fatal with
    | true => simp [runAll_of_fatal run _ h]
    | false => rw [List.cons_append, runAll_cons run x _ h, runAll_cons run x _ h, ih]

/-- A property of states that every unit keeps is kept by the run. -/
theorem runAll_keeps {α : Type} {run : α → State → State} {P : State → Prop} {G : α → Prop}
    (hrun : ∀ x s, G x → P s → P (run x s)) {xs : List α} {s : State} (hxs : ∀ x ∈ xs, G x) (hs : P s) :
    P (runAll run xs s) := by
  induction xs generalizing s with
  | nil => exact hs
  | cons x xs ih =>
    cases h : s.fatal with
    | true => rw [runAll_of_fatal run _ h]; exact hs
    | false =>
      rw [runAll_cons run x xs h]
      exact ih (fun y hy => hxs y (List.mem_cons_of_mem x hy)) (hrun x s (hxs x List.mem_cons_self) hs)

/-! ### A section through stages 5 and 6 (R331, R390, R450) -/

/-- All that `out(S)` does: one record on each output stream, the same metadata on both, the delay lines and the
counters; nothing else. -/
theorem outSection_spec (c : Params) (sec : F2Section) (s : State) :
    ∃ (d : F1Section) (circ : Stage5) (cnt : Counters), d.info = sec.info ∧
      outSection c sec s =
        { s with f2Out := s.f2Out ++ [sec], d24Out := s.d24Out ++ [d], circ := circ, cnt := cnt } :=
  ⟨_, _, _, rfl, rfl⟩

/-- All that a run of `out(S)` does; it never halts. -/
theorem runAll_outSection_spec (c : Params) (secs : List F2Section) {s : State} (h : s.fatal = false) :
    ∃ (ds : List F1Section) (circ : Stage5) (cnt : Counters),
      ds.map (fun d => d.info) = secs.map (fun sec => sec.info) ∧
      runAll (outSection c) secs s =
        { s with f2Out := s.f2Out ++ secs, d24Out := s.d24Out ++ ds, circ := circ, cnt := cnt } := by
  induction secs generalizing s with
  | nil => exact ⟨[], s.circ, s.cnt, rfl, by simp⟩
  | cons sec secs ih =>
    obtain ⟨d, circ, cnt, hd, he⟩ := outSection_spec c sec s
    obtain ⟨ds, circ', cnt', hds, he'⟩ := ih (s := outSection c sec s) (by rw [he]; exact h)
    refine ⟨d :: ds, circ', cnt', by simp [hd, hds], ?_⟩
    rw [runAll_cons _ _ _ h, he', he]
    simp

/-! ### A property carried through the pipeline -/

/-- What it takes for every stage of the pipeline to keep a property `P` of the state, the sections between the
stages having the property `G`. -/
structure PipelineKeeps (c : Params) (P : State → Prop) (G : F2Section → Prop) : Prop where
  counters : ∀ s cnt, P s → P { s with cnt := cnt }
  symbols : ∀ s p, P s → P { s with sym := p }
  token : ∀ t s, P s → P { s with tv := (stage1Take t s.tv s.cnt).st }
  flush1 : ∀ s, P s → P { s with tv := (stage1Flush s.tv s.cnt).st }
  frame : ∀ f s x secs, P s → stage3Take c f (s.f3, s.cnt) = .ok x secs →
    P { s with f3 := x.1 } ∧ ∀ sec ∈ secs, G sec
  frameHalt : ∀ f s x info, P s → stage3Take c f (s.f3, s.cnt) = .fatal x info →
    P (raiseFatal info { s with f3 := x.1 })
  flush3 : ∀ s x secs, P s → stage3Flush c (s.f3, s.cnt) = .ok x secs →
    P { s with f3 := x.1 } ∧ ∀ sec ∈ secs, G sec
  flush3Halt : ∀ s x info, P s → stage3Flush c (s.f3, s.cnt) = .fatal x info →
    P (raiseFatal info { s with f3 := x.1 })
  record : ∀ sec s x secs, P s → G sec → stage4Take c s.watermark sec (s.f2c, s.cnt) = .ok x secs →
    P { s with f2c := x.1 } ∧ ∀ sec ∈ secs, G sec
  recordHalt : ∀ sec s x info, P s → G sec → stage4Take c s.watermark sec (s.f2c, s.cnt) = .fatal x info →
    P (raiseFatal info { s with f2c := x.1 })
  flush4 : ∀ s, P s → P { s with f2c := (stage4Flush (s.f2c, s.cnt)).1.1 } ∧
    ∀ sec ∈ (stage4Flush (s.f2c, s.cnt)).2, G sec
  out : ∀ sec s, P s → G sec → P (outSection c sec s)
  flush5 : ∀ s, P s → P (flushStage5 s)

namespace PipelineKeeps

variable {c : Params} {P : State → Prop} {G : F2Section → Prop}

theorem runStage4 (K : PipelineKeeps c P G) (sec : F2Section) (s : State) (hsec : G sec) (hs : P s) :
    P (runStage4 c sec s) := by
  unfold Machine.runStage4
  cases h : stage4Take c s.watermark sec (s.f2c, s.cnt) with
  | ok x secs =>
    obtain ⟨hp, hg⟩ := K.record sec s x secs hs hsec h
    exact runAll_keeps (fun y t hy ht => K.out y t ht hy) hg (K.counters _ x.2 hp)
  | fatal x info => exact K.counters _ x.2 (K.recordHalt sec s x info hs hsec h)

theorem runStage3 (K : PipelineKeeps c P G) (f : F3Frame) (s : State) (hs : P s) : P (runStage3 c f s) := by
  unfold Machine.runStage3
  cases h : stage3Take c f (s.f3, s.cnt) with
  | ok x secs =>
    obtain ⟨hp, hg⟩ := K.frame f s x secs hs h
    exact runAll_keeps K.runStage4 hg (K.counters _ x.2 hp)
  | fatal x info => exact K.counters _ x.2 (K.frameHalt f s x info hs h)

theorem runStage2 (K : PipelineKeeps c P G) (cf : ChannelFrame) (s : State) (hs : P s) : P (runStage2 c cf s) :=
  K.runStage3 _ _ (K.counters s _ hs)

theorem runFrames (K : PipelineKeeps c P G) (cfs : List ChannelFrame) (s : State) (hs : P s) :
    P (runAll (Machine.runStage2 c) cfs s) :=
  runAll_keeps (G := fun _ => True) (fun cf s _ hs => K.runStage2 cf s hs) (fun _ _ => trivial) hs

theorem pushToken (K : PipelineKeeps c P G) (t : Byte) (s : State) (hs : P s) : P (pushToken c t s) := by
  unfold Machine.pushToken
  split
  · exact K.counters s _ hs
  · exact K.runFrames _ _ (K.counters _ _ (K.token t s hs))

theorem flushStage1 (K : PipelineKeeps c P G) (s : State) (hs : P s) : P (flushStage1 c s) :=
  K.runFrames _ _ (K.counters _ _ (K.flush1 s hs))

theorem flushStage3 (K : PipelineKeeps c P G) (s : State) (hs : P s) : P (flushStage3 c s) := by
  unfold Machine.flushStage3
  cases h : stage3Flush c (s.f3, s.cnt) with
  | ok x secs =>
    obtain ⟨hp, hg⟩ := K.flush3 s x secs hs h
    exact runAll_keeps K.runStage4 hg (K.counters _ x.2 hp)
  | fatal x info => exact K.counters _ x.2 (K.flush3Halt s x info hs h)

theorem flushStage4 (K : PipelineKeeps c P G) (s : State) (hs : P s) : P (flushStage4 c s) :=
  runAll_keeps (fun y t hy ht => K.out y t ht hy) (K.flush4 s hs).2 (K.counters _ _ (K.flush4 s hs).1)

theorem flushAll (K : PipelineKeeps c P G) (s : State) (hs : P s) : P (flushAll c s) := by
  refine runAll_keeps (G := fun f : State → State => ∀ t, P t → P (f t)) (fun f t hf ht => hf t ht) ?_ hs
  intro f hf
  simp only [List.mem_cons, List.not_mem_nil, or_false] at hf
  rcases hf with rfl | rfl | rfl | rfl | rfl
  · exact K.flushStage1
  · exact fun t ht => K.symbols t none ht
  · exact K.flushStage3
  · exact K.flushStage4
  · exact K.flush5

theorem takeSymbolCode (K : PipelineKeeps c P G) (d : EfmCode) (s : State) (hs : P s) :
    P (takeSymbolCode c d s) := by
  unfold Machine.takeSymbolCode
  split
  · exact hs
  · split
    · exact K.symbols _ (some ⟨(subcodeType d).1, (subcodeType d).2, []⟩) (K.counters s (countSubcode d s.cnt) hs)
    · rename_i p _
      unfold takeDataCode
      simp only
      split
      · exact K.symbols _ (some { p with cells := p.cells ++ [dataCell d] })
          (K.counters s (countDataSymbol d s.cnt) hs)
      · exact K.runStage3 _ _ (K.counters _ _ (K.symbols s none hs))

theorem writeRegister (K : PipelineKeeps c P G) (addr : Addr) (v : Word)
    (hreset : addr = 0x000#12 → v.getLsbD 1 = true → ∀ s, P s → P (resetMachine s))
    (hwatermark : addr = 0x008#12 → ∀ s w, P s → P { s with watermark := w }) (s : State) (hs : P s) :
    P (writeRegister c addr v s) := by
  unfold Machine.writeRegister
  split
  · rename_i ha
    unfold writeControl
    split
    · rename_i hv; exact hreset ha hv s hs
    · split
      · exact K.flushAll s hs
      · exact hs
  · split
    · rename_i ha; exact hwatermark ha s _ hs
    · split
      · exact K.pushToken _ s hs
      · exact hs

end PipelineKeeps

/-- A property that the pipeline keeps is kept by an instruction, if what else that instruction writes keeps it:
RESET, the watermark, the reply, a popped queue. -/
theorem exec_keeps {P : State → Prop} {G : F2Section → Prop} (K : PipelineKeeps Config.machine P G) {i : Instr}
    (hreset : isReset i = true → ∀ s, P s → P (resetMachine s))
    (hwatermark : (∃ v, i = .regWrite 0x008#12 v) → ∀ s w, P s → P { s with watermark := w })
    (hreply : (∃ addr, i = .regRead addr) ∨ isPop i = true → ∀ s r, P s → P { s with reply := r })
    (hpopF2 : isPop i = true → ∀ s sec rest, P s → s.f2Out = sec :: rest → P { s with f2Out := rest })
    (hpopD24 : isPop i = true → ∀ s sec rest, P s → s.d24Out = sec :: rest → P { s with d24Out := rest })
    {s s' : State} (h : exec i s = .next s') (hs : P s) : P s' := by
  cases i with
  | regRead addr =>
    simp only [exec, execRegRead] at h
    split at h
    · cases h; exact hreply (.inl ⟨addr, rfl⟩) s _ hs
    · cases h
  | regWrite addr v =>
    simp only [exec, execRegWrite] at h
    split at h
    · cases h; exact K.writeRegister addr v (fun ha hv => hreset (by subst ha; simpa [isReset] using hv))
        (fun ha => hwatermark ⟨v, by rw [ha]⟩) s hs
    · cases h
  | popF2 =>
    simp only [exec, execPopF2] at h
    split at h
    · cases h; exact hreply (.inr rfl) s _ hs
    · rename_i sec rest he
      cases h; exact hreply (.inr rfl) _ _ (hpopF2 rfl s sec rest hs he)
  | popD24 =>
    simp only [exec, execPopD24] at h
    split at h
    · cases h; exact hreply (.inr rfl) s _ hs
    · rename_i sec rest he
      cases h; exact hreply (.inr rfl) _ _ (hpopD24 rfl s sec rest hs he)
  | reset hi bit0 => cases h; exact hreset rfl s hs
  | flush hi => cases h; exact K.flushAll s hs
  | pushTv v => cases h; exact K.pushToken _ s hs
  | sync => cases h; exact K.pushToken _ _ (K.pushToken _ s hs)
  | symSync0 v => cases h; exact K.takeSymbolCode _ s hs
  | symSync1 v => cases h; exact K.takeSymbolCode _ s hs
  | symData v => cases h; exact K.takeSymbolCode _ s hs
  | symInvalid v => cases h; exact K.takeSymbolCode _ s hs
  | t3 => cases h; exact K.pushToken _ s hs
  | t4 => cases h; exact K.pushToken _ s hs
  | t5 => cases h; exact K.pushToken _ s hs
  | t6 => cases h; exact K.pushToken _ s hs
  | t7 => cases h; exact K.pushToken _ s hs
  | t8 => cases h; exact K.pushToken _ s hs
  | t9 => cases h; exact K.pushToken _ s hs
  | t10 => cases h; exact K.pushToken _ s hs
  | t11 => cases h; exact K.pushToken _ s hs
  | tvZero => cases h; exact K.pushToken _ s hs
  | tvShort t => cases h; exact K.pushToken _ s hs
  | tvLong t => cases h; exact K.pushToken _ s hs

/-- What a next state of a step is: the instruction read from the ports, executed, or the same state when no action
waits. -/
theorem step_cases {s s' : State} (h : step s = .next s') :
    (∃ i rest, decode s.hostIn = .ok (i, rest) ∧ exec i { s with hostIn := rest } = .next s') ∨
      (decode s.hostIn = .error .noInput ∧ s' = s) := by
  unfold step fetchAction at h
  cases hd : decode s.hostIn with
  | ok p =>
    rw [hd] at h
    exact .inl ⟨p.1, p.2, rfl, h⟩
  | error e =>
    rw [hd] at h
    cases e with
    | noInput => cases h; exact .inr ⟨rfl, rfl⟩
    | accessWidth w => cases h
    | unaligned a => cases h

/-- The same for a step, the waiting actions being no part of the property. -/
theorem step_keeps {P : State → Prop} (hexec : ∀ i s s', exec i s = .next s' → P s → P s')
    (hhost : ∀ s l, P s → P { s with hostIn := l }) {s s' : State} (h : step s = .next s') (hs : P s) : P s' := by
  rcases step_cases h with ⟨i, rest, -, he⟩ | ⟨-, rfl⟩
  · exact hexec i _ s' he (hhost s rest hs)
  · exact hs

end Sys2Proof.Machine
end

