-- ==== Sys2Proof/Laws/Stages.lean ====
section
/-!
SUPPORT. One lemma for each operation the stages share: stored times, BCD fields, token sequences, finishing sections,
padding, delay lines and the run of the CIRC cascade.
-/

namespace Sys2Proof.Machine

/-! ### Stored times and distances (R11, R64) -/

/-- A time that fits is stored exactly. -/
theorem storeTime_toInt (c : Params) {t : Int} (h : -2147483648 ≤ t) (h' : t < 2147483648) :
    (storeTime c t).toInt = t := by
  unfold storeTime
  rw [if_pos ⟨h, h'⟩, BitVec.toInt_ofInt]
  exact Int.bmod_eq_of_le (by omega) (by omega)

/-- A stored time fits 32 signed bits. -/
theorem absOf_range (m : SectionMeta) : -2147483648 ≤ absOf m ∧ absOf m < 2147483648 := by
  unfold absOf
  have h1 := BitVec.le_toInt m.absoluteTime
  have h2 := BitVec.toInt_lt (x := m.absoluteTime)
  omega

/-- A distance that fits is counted exactly. -/
theorem nextDist_toNat (c : Params) {d : Word} (h : d.toNat + 1 < 4294967296) :
    (nextDist c d).toNat = d.toNat + 1 := by
  unfold nextDist
  rw [if_pos h]
  bv_omega

/-! ### BCD fields (R153, R477) -/

/-- The value of a BCD byte. -/
theorem bcd_le {b : Byte} {n : Nat} (h : bcd b = some n) : n ≤ 99 := by
  unfold bcd at h
  split at h
  · simp only [Option.some.injEq] at h
    omega
  · cases h

/-- A section time in BCD is at most 99:59:74. -/
theorem bcdTime_le {m s f : Byte} {n : Nat} (h : bcdTime m s f = some n) : n ≤ 449999 := by
  unfold bcdTime at h
  split at h
  · rename_i a b d ha hb hd
    split at h
    · rename_i hlt
      have := bcd_le ha
      simp only [Option.some.injEq, msfFrames] at h
      omega
    · cases h
  · cases h

/-- BCD decoding by validity and value. -/
theorem bcd_eq (b : Byte) : bcd b = if isBcd b = true then some (bcdValue b) else none := by
  simp [bcd, isBcd, bcdValue]

/-- A section time in BCD by validity and value. -/
theorem bcdTime_eq (m s f : Byte) :
    bcdTime m s f =
      if isTime m s f = true then some ((bcdValue m * 60 + bcdValue s) * 75 + bcdValue f) else none := by
  unfold bcdTime
  simp only [bcd_eq]
  cases h1 : isBcd m <;> cases h2 : isBcd s <;> cases h3 : isBcd f <;> simp [h1, h2, h3, isTime, msfFrames]

/-! ### Token sequences (R201 to R204) -/

theorem tokenSum_append (a b : List Byte) : tokenSum (a ++ b) = tokenSum a + tokenSum b := by
  simp [tokenSum]

theorem tokenSum_cons (t : Byte) (ts : List Byte) : tokenSum (t :: ts) = t.toNat + tokenSum ts := by
  simp [tokenSum]

theorem channelBits_cons (t : Byte) (ts : List Byte) : channelBits (t :: ts) = expand t ++ channelBits ts := by
  simp [channelBits]

/-- A token sequence that begins with a sync pattern. -/
theorem firstSync_eq_zero {s : List Byte} : firstSync s = some 0 ↔ ∃ rest, s = tvSyncToken :: tvSyncToken :: rest := by
  constructor
  · intro h
    match s, h with
    | a :: b :: rest, h =>
      unfold firstSync at h
      split at h
      · rename_i hab
        exact ⟨rest, by rw [hab.1, hab.2]⟩
      · cases hf : firstSync (b :: rest) with
        | none => simp [hf] at h
        | some n => simp [hf] at h
  · rintro ⟨rest, rfl⟩
    simp [firstSync]

/-- A sequence with no sync pattern and a last token 11 gets its pattern from one more token 11. -/
theorem firstSync_append_pair {v : List Byte} (h : firstSync (v ++ [0x0B#8]) = none) :
    firstSync (v ++ [0x0B#8, 0x0B#8]) = some v.length := by
  induction v with
  | nil => rfl
  | cons a v ih =>
    cases v with
    | nil =>
      simp only [List.cons_append, List.nil_append, firstSync] at h ⊢
      split at h
      · cases h
      · rename_i hne
        rw [if_neg hne]
        rfl
    | cons b v =>
      rw [List.cons_append, List.cons_append, firstSync] at h ⊢
      split at h
      · cases h
      · rename_i hne
        rw [if_neg hne, ← List.cons_append, ih (Option.map_eq_none_iff.1 h)]
        rfl

/-- The second token 11 after a searched part without a sync pattern completes one at its end (R202). -/
theorem findSync_append_pair {w : List Byte} {start : Nat} (hs : start ≤ w.length)
    (h : findSync (w ++ [0x0B#8]) start = none) : findSync (w ++ [0x0B#8, 0x0B#8]) start = some w.length := by
  unfold findSync at *
  rw [List.drop_append_of_le_length hs] at *
  rw [firstSync_append_pair (Option.map_eq_none_iff.1 h)]
  simp only [Option.map_some, List.length_drop, Option.some.injEq]
  omega

theorem endsInSyncToken_append (w : List Byte) (t : Byte) :
    endsInSyncToken (w ++ [t]) = decide (t = 0x0B#8) := by
  simp [endsInSyncToken]
  rfl

/-- The bits pending after a token (R204). -/
theorem pendingBits_append (w : List Byte) (t : Byte) :
    pendingBits (w ++ [t]) = tokenSum (w ++ [t]) - 11 * (if t = 0x0B#8 then 1 else 0) := by
  simp only [pendingBits, endsInSyncToken_append, decide_eq_true_eq]
  split <;> simp

/-- One rule of the stage loop and what follows it (R205). -/
theorem stage1Loop_succ (fuel : Nat) (st : Stage1) (cnt : Counters) :
    stage1Loop (fuel + 1) st cnt =
      if (stage1Rule st cnt).again then
        { stage1Loop fuel (stage1Rule st cnt).st (stage1Rule st cnt).cnt with
          frames := (stage1Rule st cnt).frames ++
            (stage1Loop fuel (stage1Rule st cnt).st (stage1Rule st cnt).cnt).frames }
      else stage1Rule st cnt := rfl

/-! ### Finishing sections (R293, R479) -/

/-- The only halt of the subcode decoder. -/
theorem fromData_fatal {init : BitVec 16} {sub : List Byte} {cnt cnt' : Counters} {info : FatalInfo}
    (h : fromData init sub cnt = .fatal cnt' info) : info = ⟨.unsupportedQMode3, 0, 0⟩ := by
  unfold fromData at h
  simp only at h
  split at h
  · cases h
  · split at h <;> cases h
    rfl

/-- The mode dispatch answers mode 3 for that mode only (R476, R479). -/
theorem decodeQ_eq_mode3 {q : QChannel} {p repaired : Bool} :
    decodeQ q p repaired = .mode3 ↔ q[0].toNat % 16 = 3 := by
  unfold decodeQ recordOrRejected
  constructor
  · intro h
    split at h
    · split at h <;> cases h
    · split at h <;> cases h
    · assumption
    · split at h <;> cases h
    · cases h
  · intro h
    simp [h]

/-- The subcode decoder raises the halt for a section of mode 3, and for no other (R470, R479). -/
theorem fromData_fatal_iff {c : Params} {frames : List F3Frame} {cnt : Counters} :
    (∃ cnt' info, fromData c.qCrcInit (frames.map subcodeByte) cnt = .fatal cnt' info) ↔
      isMode3Section c frames = true := by
  unfold fromData isMode3Section
  simp only
  cases checkAndRepair c.qCrcInit (assembleQ (frames.map subcodeByte)) with
  | bad => simp
  | good q repaired =>
    simp only [beq_iff_eq]
    rw [← decodeQ_eq_mode3 (p := pFlagOf (frames.map subcodeByte)) (repaired := repaired)]
    cases decodeQ q (pFlagOf (frames.map subcodeByte)) repaired <;> simp

/-- Finishing a section of mode 3 raises the halt and leaves stage 3 as it was (R293, R479). -/
theorem finish_of_mode3 {c : Params} {frames : List F3Frame} (x : S3) (h : isMode3Section c frames = true) :
    ∃ cnt, finish c frames x = .fatal (x.1, cnt) ⟨.unsupportedQMode3, 0, 0⟩ := by
  obtain ⟨cnt, info, he⟩ := (fromData_fatal_iff (cnt := x.2)).2 h
  exact ⟨cnt, by simp only [finish, he, fromData_fatal he]⟩

/-- `s3_last_abs` after several sections, by `updateLast` section by section (R295). -/
theorem lastTimeAfter_cons (sec : F2Section) (more : List F2Section) (lastAbs : Option Word) :
    lastTimeAfter (sec :: more) lastAbs = lastTimeAfter more (updateLast lastAbs sec.info) := by
  rw [lastTimeAfter]
  congr 1
  unfold updateLast hasFullTime
  cases sec.info.isValid <;> cases sec.info.qMode <;> simp

/-- Finishing any other section gives it the cells of its frames; of stage 3's state only `s3_last_abs` changes, by the
section's record (R293, R295). -/
theorem finish_of_not_mode3 {c : Params} {frames : List F3Frame} (x : S3) (h : isMode3Section c frames = false) :
    ∃ cnt m,
      finish c frames x =
        .ok ({ x.1 with lastAbs := updateLast x.1.lastAbs m }, cnt) ⟨frames.map fun f => f.cells, m⟩ := by
  cases he : fromData c.qCrcInit (frames.map subcodeByte) x.2 with
  | fatal cnt info => rw [fromData_fatal_iff.1 ⟨cnt, info, he⟩] at h; cases h
  | ok cnt m =>
    refine ⟨countJump x.1.lastAbs m cnt, jumpCheck x.1.lastAbs m, ?_⟩
    simp only [finish, he]

/-- All that finishing sections can do: either every section is finished, in order, with the cells of its frames, and
`s3_last_abs` follows their records, or the Q-mode 3 halt is raised; nothing else of stage 3's state changes. -/
theorem finishAll_spec (c : Params) (pieces : List (List F3Frame)) (x : S3) :
    (∃ cnt secs, finishAll c pieces x = .ok ({ x.1 with lastAbs := lastTimeAfter secs x.1.lastAbs }, cnt) secs ∧
      secs.map (fun sec => sec.frames) = pieces.map fun fs => fs.map fun f => f.cells) ∨
    ∃ lastAbs cnt, finishAll c pieces x = .fatal ({ x.1 with lastAbs := lastAbs }, cnt) ⟨.unsupportedQMode3, 0, 0⟩ := by
  induction pieces generalizing x with
  | nil => exact .inl ⟨x.2, [], rfl, rfl⟩
  | cons fs more ih =>
    unfold finishAll
    cases h : isMode3Section c fs with
    | true =>
      obtain ⟨cnt, he⟩ := finish_of_mode3 x h
      exact .inr ⟨x.1.lastAbs, cnt, by rw [he]⟩
    | false =>
      obtain ⟨cnt, m, he⟩ := finish_of_not_mode3 x h
      rcases ih ({ x.1 with lastAbs := updateLast x.1.lastAbs m }, cnt) with ⟨cnt', secs, he', hs⟩ | ⟨la, cnt', he'⟩
      · refine .inl ⟨cnt', ⟨fs.map fun f => f.cells, m⟩ :: secs, ?_, by simp [hs]⟩
        simp only [he, he', lastTimeAfter_cons]
      · exact .inr ⟨la, cnt', by simp only [he, he']⟩

/-- All that the sections of a boundary and the rest of its rule can do. -/
theorem finishThen_spec (c : Params) (pieces : List (List F3Frame)) (rest : S3 → S3) (x : S3) :
    (∃ cnt secs,
      finishThen c pieces rest x = .ok (rest ({ x.1 with lastAbs := lastTimeAfter secs x.1.lastAbs }, cnt)) secs ∧
      secs.map (fun sec => sec.frames) = pieces.map fun fs => fs.map fun f => f.cells) ∨
    ∃ lastAbs cnt,
      finishThen c pieces rest x = .fatal ({ x.1 with lastAbs := lastAbs }, cnt) ⟨.unsupportedQMode3, 0, 0⟩ := by
  unfold finishThen
  rcases finishAll_spec c pieces x with ⟨cnt, secs, he, hs⟩ | ⟨la, cnt, he⟩
  · exact .inl ⟨cnt, secs, by rw [he], hs⟩
  · exact .inr ⟨la, cnt, by rw [he]⟩

/-- Padding adds one frame for each pad (R287). -/
theorem interleavePads_length (g : Nat) (rest : List F3Frame) : (interleavePads g rest).length = g + rest.length := by
  induction g generalizing rest with
  | zero => simp [interleavePads]
  | succ g ih =>
    cases rest <;> simp [interleavePads, ih]
    omega

/-! ### Stage 4 (R330, R336 to R344) -/

/-- An invalid section in the steady phase. -/
theorem stage4Take_steady_invalid (c : Params) (w : BitVec 16) {sec : F2Section} {st : Stage4} (cnt : Counters)
    (hp : st.phase = .steady) (hv : sec.info.isValid = false) :
    stage4Take c w sec (st, cnt) = noRaise (steadyInvalid c sec (st, bump .f2cSectionsIn 1 cnt)) := by
  simp [stage4Take, hp, f2cSteady, hv]

/-- A valid section in the steady phase: its Q-mode 2 time is corrected, then the time is compared. -/
theorem stage4Take_steady_valid (c : Params) (w : BitVec 16) {sec : F2Section} {st : Stage4} (cnt : Counters)
    {l : SectionMeta} (hp : st.phase = .steady) (hl : st.last = some l) (hv : sec.info.isValid = true) :
    stage4Take c w sec (st, cnt) =
      steadyTimed c w l (expectedTime l st.dist) (correctMode2 c (expectedTime l st.dist) sec)
        (st, bump .f2cSectionsIn 1 cnt) := by
  simp [stage4Take, hp, f2cSteady, hv, hl]

/-- The settle phase never raises. -/
theorem stage4Take_settle (c : Params) (w : BitVec 16) (sec : F2Section) {st : Stage4} (cnt : Counters)
    (hp : st.phase = .settle) :
    stage4Take c w sec (st, cnt) = noRaise (f2cSettle c sec (st, bump .f2cSectionsIn 1 cnt)) := by
  simp [stage4Take, hp]

/-- On time (R339). -/
theorem steadyTimed_onTime (c : Params) (w : BitVec 16) (l : SectionMeta) {e : Int} {sec : F2Section} (x : S4)
    (h : absOf sec.info = e) : steadyTimed c w l e sec x = noRaise (steadyOnTime c l sec x) := by
  simp [steadyTimed, h]

/-- Too early (R341). -/
theorem steadyTimed_early (c : Params) (w : BitVec 16) (l : SectionMeta) {e : Int} {sec : F2Section} (x : S4)
    (h : absOf sec.info < e) : steadyTimed c w l e sec x = .ok (x.1, bump .f2cOutOfOrderDrops 1 x.2) [] := by
  simp [steadyTimed, h, ne_of_lt h]

/-- Too late after invalid sections (R342). -/
theorem steadyTimed_uncorrectable (c : Params) (w : BitVec 16) (l : SectionMeta) {e : Int} {sec : F2Section} {x : S4}
    (h : e < absOf sec.info) (hd : x.1.dist ≠ 0) :
    steadyTimed c w l e sec x = .fatal x (gapInfo c .uncorrectableGap e sec) := by
  unfold steadyTimed
  rw [if_neg (ne_of_gt h), if_neg (not_lt_of_gt h), if_pos hd]

/-- Too late with no invalid section before (R343, R344). -/
theorem steadyTimed_gap (c : Params) (w : BitVec 16) (l : SectionMeta) {e : Int} {sec : F2Section} {x : S4}
    (h : e < absOf sec.info) (hd : x.1.dist = 0) :
    steadyTimed c w l e sec x =
      if gapTooLarge c.maxGap (absOf sec.info - e).toNat then .fatal x (gapInfo c .gapTooLarge e sec)
      else noRaise (steadyGap c w l e (absOf sec.info - e).toNat sec x) := by
  simp [steadyTimed, hd, ne_of_gt h, not_lt_of_gt h]

/-- The repaired sections, one by one (R339, R340). -/
theorem interpolateFrom_getElem? (c : Params) (l : SectionMeta) (idx : Int) (pending : List F2Section) (k : Nat) :
    (interpolateFrom c l idx pending)[k]? =
      pending[k]?.map fun z => { z with info := interpolated c l (idx + k) z.info.pFlag } := by
  induction pending generalizing idx k with
  | nil => simp [interpolateFrom]
  | cons p more ih =>
    cases k with
    | zero => simp [interpolateFrom]
    | succ k =>
      simp only [interpolateFrom, List.getElem?_cons_succ, ih]
      congr 2
      funext z
      congr 2
      push_cast
      ring

@[simp] theorem interpolateFrom_length (c : Params) (l : SectionMeta) (idx : Int) (pending : List F2Section) :
    (interpolateFrom c l idx pending).length = pending.length := by
  induction pending generalizing idx with
  | nil => rfl
  | cons p more ih => simp [interpolateFrom, ih]

/-! ### Delay lines and the cascade (R390 to R394) -/

/-- A push keeps the length of a line. -/
theorem dlNext_line_length {n : Nat} (len : Fin n → Nat) (longest : Nat) (d : DelaySet n) (v : Vector Cell n)
    (p : Fin n) (h : d.lines[p].length = len p) : (dlNext len longest d v).lines[p].length = len p := by
  unfold dlNext
  simp only [Fin.getElem_fin, Vector.getElem_ofFn, Fin.eta]
  split
  · exact h
  · simp only [Fin.getElem_fin] at h
    simp [h]
    omega

/-- What the count of a set is after a push. -/
theorem dlNext_count {n : Nat} (len : Fin n → Nat) (longest : Nat) (d : DelaySet n) (v : Vector Cell n) :
    (dlNext len longest d v).count = min (d.count + 1) (longest + 1) := rfl

/-- Frames come out one for one. -/
theorem decodeFrames_length (c : Params) (frames : List F2Frame) (x : S5) :
    (decodeFrames c frames x).1.length = frames.length := by
  induction frames generalizing x with
  | nil => rfl
  | cons f more ih => simp [decodeFrames, ih]

/-- Decoding in two parts. -/
theorem decodeFrames_append (c : Params) (a b : List F2Frame) (x : S5) :
    decodeFrames c (a ++ b) x =
      ((decodeFrames c a x).1 ++ (decodeFrames c b (decodeFrames c a x).2).1,
        (decodeFrames c b (decodeFrames c a x).2).2) := by
  induction a generalizing x with
  | nil => rfl
  | cons f more ih => simp [decodeFrames, ih]

/-! ### A Reed-Solomon pass (R396, R399) -/

/-- `Ok` writes the corrected bytes and clears the error flags. -/
theorem afterDecode_some {n : Nat} (cw : Vector Byte n) (x : Vector Cell n) (p : Fin n) :
    (afterDecode (some cw) x)[p] = ⟨cw[p], false, x[p].padded⟩ := by
  simp [afterDecode]

/-- `Fail` keeps the bytes and sets the error flags. -/
theorem afterDecode_none {n : Nat} (x : Vector Cell n) (p : Fin n) :
    (afterDecode none x)[p] = ⟨x[p].data, true, x[p].padded⟩ := by
  simp [afterDecode]

end Sys2Proof.Machine
end

