-- ==== Sys2Proof/Tests/Slice0.lean ====
section
/-!
SUPPORT. Tests of one step each, their expected values from 95_test_vectors.md or worked out from the rule named, and
for every statement with hypotheses a state and operands that meet them (`witness_…`).
-/

namespace Sys2Proof.Tests

open Sys2Proof Sys2Proof.Machine

/-! ### Helpers -/

/-- Test parameters: the pass-through codec of 95_test_vectors.md, the defaults, and the EFM table that numbers the
words as R138 numbers the codes. -/
def testParams : Params where
  efmDecode v := EfmCode.ofIndex v
  rsC1 cw _ := some cw
  rsC2 cw _ := some cw
  qCrcInit := Config.qCrcInitDefault
  deinterleave := Config.deinterleaveDefault
  maxGap := Config.maxGapDefault
  timeOverflow _ := 0
  distOverflow _ := 0

/-- The state of a next outcome. -/
def after : Host.Outcome State Fault Refusal → Option State
  | .next s => some s
  | .fault _ => none
  | .refused _ => none

/-- Stage 1 expecting sync, with a buffer. -/
def expecting (buf : List Byte) : Stage1 := ⟨buf, .expectingSync, 0⟩

/-- The state after reset with stage 1 expecting sync. -/
def tvState (buf : List Byte) : State := { State.reset with tv := expecting buf }

/-- The state after reset, halted by an uncorrectable gap. -/
def haltedState : State := raiseFatal ⟨.uncorrectableGap, 102, 105⟩ State.reset

/-- Counters after reset. -/
def zeroCounters : Counters := State.reset.cnt

/-- `n` tokens `t`. -/
def rep (n : Nat) (t : Byte) : List Byte := List.replicate n t

/-- The symbol of table index `k`. -/
def symbolOf (k : Symbol) : Symbol := Config.efmIndex.symm k

theorem efmDecode_symbolOf (k : Symbol) : Config.machine.efmDecode (symbolOf k) = EfmCode.ofIndex k := by
  simp [Config.machine, symbolOf]

/-- A frame of zero cells. -/
def plainFrame (type : FrameType) : F3Frame := ⟨Vector.replicate 32 Cell.zero, type, false⟩

/-- A valid record of Q-mode 1 for time `t`. -/
def record (t : Word) : SectionMeta :=
  { invalidMeta false with
    sectionType := .userData, qMode := .mode1, trackNumber := 1, relativeTime := t, absoluteTime := t, isValid := true }

/-- A section of 98 zero frames. -/
def plainSection (m : SectionMeta) : F2Section := ⟨List.replicate 98 (Vector.replicate 32 Cell.zero), m⟩

/-- Stage 4 in its steady phase, the last section at time 104, `d` invalid sections since. -/
def steadyAt (d : Word) (pending : List F2Section) : Stage4 := ⟨.steady, [], some (record 104), pending, d⟩

/-- The Q channel QA of V-SUB-1. -/
def qA : QChannel := #v[0x01, 0x01, 0x01, 0x00, 0x00, 0x00, 0x00, 0x00, 0x02, 0x00, 0x5A, 0x28]

/-- The Q channel of V-SUB-2 #5, of mode 3. -/
def qMode3 : QChannel := #v[0x03, 0x00, 0x00, 0x00, 0x00, 0x00, 0x00, 0x00, 0x00, 0x00, 0x4E, 0x30]

/-- The subcode bytes that carry a Q channel (R472). -/
def subcodeOf (q : QChannel) : List Byte :=
  [0x00, 0x00] ++ (q.toList.flatMap byteBits).map fun b => if b then 0x40#8 else 0x00#8

/-! ### WellFormed refuses ill-formed terms -/

theorem test_wellFormed_tvShort_zero : wellFormed (.tvShort 0#2) = false := by decide
theorem test_wellFormed_tvShort_three : wellFormed (.tvShort 3#2) = false := by decide
theorem test_wellFormed_tvLong_eleven : wellFormed (.tvLong 11#8) = false := by decide
theorem test_wellFormed_regRead_unaligned : wellFormed (.regRead 0x006#12) = false := by decide
theorem test_wellFormed_regWrite_unaligned : wellFormed (.regWrite 0x009#12 0) = false := by decide
theorem test_wellFormed_regWrite_token : wellFormed (.regWrite 0x014#12 0) = false := by decide
theorem test_wellFormed_regWrite_command : wellFormed (.regWrite 0x000#12 0b10) = false := by decide
theorem test_wellFormed_symSync0_data : wellFormed (.symSync0 (symbolOf 255)) = false := by
  simp [wellFormed, wellFormedWith, efmDecode_symbolOf, EfmCode.ofIndex]
theorem test_wellFormed_symSync1_sync0 : wellFormed (.symSync1 (symbolOf 256)) = false := by
  simp [wellFormed, wellFormedWith, efmDecode_symbolOf, EfmCode.ofIndex]
theorem test_wellFormed_symData_sync1 : wellFormed (.symData (symbolOf 257)) = false := by
  simp [wellFormed, wellFormedWith, efmDecode_symbolOf, EfmCode.ofIndex]
theorem test_wellFormed_symInvalid_data : wellFormed (.symInvalid (symbolOf 0)) = false := by
  simp [wellFormed, wellFormedWith, efmDecode_symbolOf, EfmCode.ofIndex]

/-! ### Decoding: words written out from opcode_table.json, every constructor -/

theorem test_decode_t3 : decodeTableWord 8 0b00000011 = some .t3 := by decide
theorem test_decode_t4 : decodeTableWord 8 0b00000100 = some .t4 := by decide
theorem test_decode_t5 : decodeTableWord 8 0b00000101 = some .t5 := by decide
theorem test_decode_t6 : decodeTableWord 8 0b00000110 = some .t6 := by decide
theorem test_decode_t7 : decodeTableWord 8 0b00000111 = some .t7 := by decide
theorem test_decode_t8 : decodeTableWord 8 0b00001000 = some .t8 := by decide
theorem test_decode_t9 : decodeTableWord 8 0b00001001 = some .t9 := by decide
theorem test_decode_t10 : decodeTableWord 8 0b00001010 = some .t10 := by decide
theorem test_decode_t11 : decodeTableWord 8 0b00001011 = some .t11 := by decide
theorem test_decode_tvZero : decodeTableWord 8 0b00000000 = some .tvZero := by decide
theorem test_decode_tvShort : decodeTableWord 8 0b00000001 = some (.tvShort 0b01#2) := by decide
theorem test_decode_tvLong : decodeTableWord 8 0b11111111 = some (.tvLong 255#8) := by decide
theorem test_decode_sync : decodeTableWord 16 0b0000101100001011 = some .sync := by decide
theorem test_decode_symSync0 : decode [.symbol (symbolOf 256)] = .ok (.symSync0 (symbolOf 256), []) := by
  simp [symbolInstrWith, efmDecode_symbolOf, EfmCode.ofIndex]
theorem test_decode_symSync1 : decode [.symbol (symbolOf 257)] = .ok (.symSync1 (symbolOf 257), []) := by
  simp [symbolInstrWith, efmDecode_symbolOf, EfmCode.ofIndex]
theorem test_decode_symData : decode [.symbol (symbolOf 0xC5)] = .ok (.symData (symbolOf 0xC5), []) := by
  simp [symbolInstrWith, efmDecode_symbolOf, EfmCode.ofIndex]
theorem test_decode_symInvalid : decode [.symbol (symbolOf 258)] = .ok (.symInvalid (symbolOf 258), []) := by
  simp [symbolInstrWith, efmDecode_symbolOf, EfmCode.ofIndex]
theorem test_decode_pushTv : decode [.memWrite 4 0x014#12 0x0000010B#32] = .ok (.pushTv 0x0000010B#32, []) := by
  decide
theorem test_decode_flush : decode [.memWrite 4 0x000#12 0b01#32] = .ok (.flush 0#30, []) := by decide
theorem test_decode_reset : decode [.memWrite 4 0x000#12 0b111#32] = .ok (.reset 1#30 true, []) := by decide
theorem test_decode_regRead : decode [.memRead 4 0x1B0#12] = .ok (.regRead 0x1B0#12, []) := by decide
theorem test_decode_regWrite : decode [.memWrite 4 0x008#12 3#32] = .ok (.regWrite 0x008#12 3#32, []) := by decide
theorem test_decode_popF2 : decode [.popF2] = .ok (.popF2, []) := by decide
theorem test_decode_popD24 : decode [.popD24] = .ok (.popD24, []) := by decide
theorem test_decode_refuses_width : decode [.memRead 2 0x004#12] = .error (.accessWidth 2) := by decide
theorem test_decode_refuses_unaligned : decode [.memWrite 4 0x006#12 0#32] = .error (.unaligned 0x006#12) := by decide

/-! ### Tokens (V-S1) -/

theorem test_t3_discarded : (after (exec .t3 State.reset)).map (fun s => (s.tv.buf, cntGet .tvTokensDiscarded s.cnt)) =
    some ([], 1) := by decide
theorem test_t4_after_sync : (after (exec .t4 (tvState [11, 11]))).map (fun s => s.tv.buf) = some [11, 11, 4] := by
  decide
theorem test_t5_kept : (after (exec .t5 (tvState [11, 11]))).map (fun s => s.tv.buf) = some [11, 11, 5] := by decide
theorem test_t6_kept : (after (exec .t6 (tvState [11, 11]))).map (fun s => s.tv.buf) = some [11, 11, 6] := by decide
theorem test_t7_kept : (after (exec .t7 (tvState [11, 11]))).map (fun s => s.tv.buf) = some [11, 11, 7] := by decide
theorem test_t8_kept : (after (exec .t8 (tvState [11, 11]))).map (fun s => s.tv.buf) = some [11, 11, 8] := by decide
theorem test_t9_kept : (after (exec .t9 (tvState [11, 11]))).map (fun s => s.tv.buf) = some [11, 11, 9] := by decide
/-- V-S1 #13. -/
theorem test_t10_loses_sync : (after (exec .t10 (tvState ([11, 11] ++ rep 116 10)))).map
    (fun s => (s.tv.buf, s.tv.state, cntGet .tvLostSync s.cnt, cntGet .tvTokensDiscarded s.cnt)) =
      some ([], .expectingInitialSync, 1, 119) := by decide +kernel
/-- V-S1 #3. -/
theorem test_t11_waits : (after (exec .t11 State.reset)).map (fun s => (s.tv.buf, s.tv.state)) =
    some ([11], .expectingInitialSync) := by decide
/-- V-S1 #4. -/
theorem test_tvZero_discarded : (after (exec .tvZero State.reset)).map
    (fun s => (cntGet .tvTokensIn s.cnt, cntGet .tvTokensOutOfRange s.cnt, cntGet .tvTokensDiscarded s.cnt)) =
      some (1, 1, 1) := by decide
/-- V-S1 #5. -/
theorem test_tvShort_kept : (after (exec (.tvShort 1#2) (tvState [11, 11]))).map
    (fun s => (s.tv.buf, cntGet .tvTokensOutOfRange s.cnt)) = some ([11, 11, 1], 1) := by decide
theorem test_tvLong_kept : (after (exec (.tvLong 200#8) (tvState [11, 11]))).map
    (fun s => (s.tv.buf, cntGet .tvTokensOutOfRange s.cnt)) = some ([11, 11, 200], 1) := by decide
theorem test_sync_enters : (after (exec .sync State.reset)).map (fun s => (s.tv.buf, s.tv.state)) =
    some ([11, 11], .expectingSync) := by decide
theorem test_token_rejected_while_halted : (after (exec .t11 haltedState)).map
    (fun s => (s.tv.buf, cntGet .tvTokensIn s.cnt, cntGet .hostTokensRejected s.cnt)) = some ([], 0, 1) := by decide
/-- V-S1 #6. -/
theorem test_stage1_exact :
    ((stage1Take 11 (expecting ([11, 11] ++ rep 56 10 ++ [6, 11])) zeroCounters).frames.map List.length,
      cntGet .tvFramesExact (stage1Take 11 (expecting ([11, 11] ++ rep 56 10 ++ [6, 11])) zeroCounters).cnt) =
        ([588], 1) := by decide +kernel
/-- V-S1 #9. -/
theorem test_stage1_split :
    (stage1Take 11 (expecting ([11, 11] ++ rep 116 10 ++ [11])) zeroCounters).frames.map List.length = [588, 594] := by
  decide +kernel
/-- V-S1 #11. -/
theorem test_stage1_fixup :
    (stage1Take 11 ⟨[11, 11] ++ rep 27 10 ++ [8, 11, 11] ++ rep 26 10 ++ [6, 11], .handleUndershoot, 30⟩
      zeroCounters).frames.map List.length = [588] := by decide +kernel
/-- V-S1 #16. -/
theorem test_stage1_flush : (stage1Flush (expecting ([11, 11] ++ rep 56 10 ++ [6])) zeroCounters).frames.map
    List.length = [588] := by decide +kernel

/-! ### Symbols (V-S2) -/

theorem test_symSync0_type : (after (exec (.symSync0 (symbolOf 256)) State.reset)).map (fun s => s.sym) =
    some (some ⟨.sync0, false, []⟩) := by rfl
theorem test_symSync1_type : (after (exec (.symSync1 (symbolOf 257)) State.reset)).map (fun s => s.sym) =
    some (some ⟨.sync1, false, []⟩) := by rfl
/-- V-S2 #3. -/
theorem test_symData_type : (after (exec (.symData (symbolOf 0xC5)) State.reset)).map (fun s => s.sym) =
    some (some ⟨.subcode 0xC5#8, false, []⟩) := by
  simp [exec, execSymData, efmDecode_symbolOf, EfmCode.ofIndex, takeSymbolCode, takeSubcodeCode, subcodeType, after,
    State.reset]
/-- V-S2 #4. -/
theorem test_symInvalid_type : (after (exec (.symInvalid (symbolOf 300)) State.reset)).map
    (fun s => (s.sym, cntGet .efmSubcodeErrors s.cnt)) = some (some ⟨.subcode 0#8, true, []⟩, 1) := by rfl
/-- V-S2 #6. -/
theorem test_sync_symbol_in_data_slot : dataCell .sync0 = ⟨0x00#8, true, false⟩ := by decide
theorem test_ofIndex_classes : EfmCode.ofIndex 255 = .byte 255#8 ∧ EfmCode.ofIndex 256 = .sync0 ∧
    EfmCode.ofIndex 257 = .sync1 ∧ EfmCode.ofIndex 258 = .invalid := by decide
/-- R13: the first channel bit in time is bit 13. -/
theorem test_symbolAt_bit_order : symbolAt (true :: List.replicate 13 false) 0 = 0x2000#14 := by decide

/-! ### Stage 3 (V-S3) and the subcode decoder (V-SUB) -/

/-- V-S3 #1: error frames at 4 and 6. -/
theorem test_pad_96 : ((padSection (List.replicate 96 (plainFrame .sync0))).map fun f => f.subcodeError).take 8 =
    [false, false, false, false, true, false, true, false] := by decide
theorem test_crc_qA : crc 0x0000#16 [0x01, 0x01, 0x01, 0x00, 0x00, 0x00, 0x00, 0x00, 0x02, 0x00] = 0x5A28#16 := by
  decide +kernel
/-- V-SUB-2 #6. -/
theorem test_crc_zeros : crc 0x0000#16 (List.replicate 10 0x00#8) = 0xFFFF#16 := by decide +kernel
theorem test_assemble_qA : assembleQ (subcodeOf qA) = qA := by decide
/-- X4, bit 37. -/
theorem test_repair_bit37 : checkAndRepair 0 (flipQBit qA 37) = .good qA true := by decide +kernel
theorem test_decode_qA : (match decodeQ qA false false with
    | .record m => (m.absoluteTime, m.relativeTime, m.trackNumber, m.isAudio)
    | .rejected => (0, 0, 0, false)
    | .mode3 => (0, 0, 0, false)) = (150, 0, 1, true) := by decide
/-- V-SUB-1 QC: the catalogue and the remainder. -/
theorem test_decode_qC : (match decodeQ #v[0x02, 0x12, 0x34, 0x56, 0x78, 0x90, 0x12, 0x30, 0x00, 0x12, 0xD9, 0xA2]
      false false with
    | .record m => (m.catalogue, m.absoluteTime)
    | .rejected => (0, 0)
    | .mode3 => (0, 0)) = (0x1234567890123, 12) := by decide
/-- V-SUB-2 #3: SEC = 60. -/
theorem test_decode_rejects : decodeQ #v[0x01, 0x01, 0x01, 0x00, 0x60, 0x00, 0x00, 0x00, 0x02, 0x00, 0x05, 0x30]
    false false = .rejected := by decide
/-- V-SUB-3 #1 and #2. -/
theorem test_pFlag_majority : pFlagOf ([0, 0] ++ rep 49 0x80 ++ rep 47 0) = true ∧
    pFlagOf ([0, 0] ++ rep 48 0x80 ++ rep 48 0) = false := by decide

/-! ### Stage 4 (V-S4), stages 5 and 6 -/

/-- V-S4 #4: six padding sections. -/
theorem test_gap_padding : (match stage4Take testParams 5#16 (plainSection (record 111)) (steadyAt 0 [], zeroCounters) with
    | .ok x secs => (secs.map (fun sec => sec.info.absoluteTime.toNat), cntGet .f2cGapPaddingSections x.2)
    | .fatal _ _ => ([], 0)) = ([105, 106, 107, 108, 109, 110, 111], 6) := by decide
/-- V-S4 #7: the halt, expected 106, actual 108. -/
theorem test_gap_uncorrectable :
    (match stage4Take testParams 5#16 (plainSection (record 108))
        (steadyAt 1 [plainSection (invalidMeta false)], zeroCounters) with
      | .ok _ _ => (.none, 0, 0)
      | .fatal _ i => (i.cause, i.expected, i.actual)) = (FatalCause.uncorrectableGap, 106, 108) := by decide
/-- V-S4 #10: a mode-2 section with remainder 25, expected 153, becomes 175. -/
theorem test_mode2_second : absOf (correctMode2 testParams 153 (plainSection { record 25 with qMode := .mode2 })).info =
    175 := by decide
/-- R402: the default `DEINTERLEAVE` is a permutation. -/
theorem test_deinterleave_default : ((List.finRange 24).map Config.deinterleaveDefault).Nodup := by decide
/-- R346: the padding-kind frame is all zero after the parity inversion. -/
theorem test_padding_frame_inverts : invertParity paddingKindFrame = Vector.replicate 32 ⟨0x00#8, false, true⟩ := by
  decide
/-- V-S6 #1. -/
theorem test_unswap : ((unswap (Vector.ofFn fun i => ⟨BitVec.ofNat 8 i.val, false, false⟩)).toList.map
    fun cl => cl.data.toNat).take 6 = [1, 0, 3, 2, 5, 4] := by decide

/-! ### Host commands (V-HOST) -/

/-- V-HOST #7. -/
theorem test_pushTv_low_byte : (after (exec (.pushTv 0x0000010B#32) State.reset)).map (fun s => s.tv.buf) =
    some [11] := by decide
/-- V-S1 #17. -/
theorem test_flush_discards : (after (exec (.flush 0) (tvState ([11, 11] ++ rep 20 10)))).map
    (fun s => (s.tv.buf, s.tv.state, cntGet .tvTokensDiscarded s.cnt)) = some ([], .expectingInitialSync, 22) := by
  decide
/-- V-HOST #9. -/
theorem test_flush_while_halted : exec (.flush 0) haltedState = .next haltedState := rfl
theorem test_reset_leaves_halt : (after (exec (.reset 0 true) haltedState)).map (fun s => (s.fatal, s.watermark)) =
    some (false, 5) := by decide
/-- P5. -/
theorem test_regRead_config : (after (exec (.regRead 0x008#12) State.reset)).map (fun s => s.reply) =
    some (.word 5) := by decide
/-- V-HOST #2. -/
theorem test_regRead_unaligned : exec (.regRead 0x006#12) State.reset = .refused (.unalignedAccess 0x006#12) := rfl
/-- V-HOST #5. -/
theorem test_regWrite_config : (after (exec (.regWrite 0x008#12 0x12340003#32) State.reset)).map
    (fun s => s.watermark) = some 3 := by decide
/-- V-HOST #4. -/
theorem test_regWrite_status : exec (.regWrite 0x004#12 0xFFFFFFFF#32) haltedState = .next haltedState := rfl
theorem test_popF2_empty : (after (exec .popF2 State.reset)).map (fun s => s.reply) = some .empty := by decide
theorem test_popF2_takes_oldest : (after (exec .popF2 { State.reset with
    f2Out := [plainSection (record 5), plainSection (record 6)] })).map
      (fun s => s.f2Out.map fun sec => sec.info.absoluteTime) = some [6] := by decide
theorem test_popD24_empty : (after (exec .popD24 State.reset)).map (fun s => s.reply) = some .empty := by decide
theorem test_popD24_takes_oldest : (after (exec .popD24 { State.reset with
    d24Out := [⟨[], record 5⟩, ⟨[], record 6⟩] })).map
      (fun s => s.d24Out.map fun sec => sec.info.absoluteTime) = some [6] := by decide
/-- P3: STATUS of the halted block with one section pending. -/
theorem test_status_word : statusWord { raiseFatal ⟨.uncorrectableGap, 21, 25⟩ State.reset with
    f2c := steadyAt 1 [plainSection (invalidMeta false)] } = 0x00012011#32 := by decide
theorem test_step_runs_fetched : (after (step (State.reset.withFetchWord 8 0x03))).map
    (fun s => (cntGet .tvTokensIn s.cnt, s.hostIn)) = some (1, []) := by decide
theorem test_step_idle : step State.reset = .next State.reset := rfl

/-! ### Witnesses: every hypothesis of a statement is met, at the boundary of each clause -/

theorem witness_DecodeAfterEncode :
    wellFormed .t11 = true ∧ (∀ more, [PortItem.popF2] ≠ .token 0x0B#8 :: more) ∧
      wellFormed (.tvShort 1#2) = true ∧ wellFormed (.tvShort 2#2) = true ∧ wellFormed (.tvLong 12#8) = true ∧
      wellFormed (.tvLong 255#8) = true ∧ wellFormed (.regRead 0xFFC#12) = true ∧
      wellFormed (.regWrite 0x000#12 0xFFFFFFFC#32) = true := by
  refine ⟨by decide, by simp, by decide, by decide, by decide, by decide, by decide, by decide⟩

theorem witness_EncodeAfterDecode :
    decode [.token 0x0B#8, .token 0x0B#8, .popF2] = .ok (.sync, [.popF2]) ∧
      decode [.memWrite 4 0x000#12 0b101#32] = .ok (.flush 1#30, []) := ⟨rfl, rfl⟩

theorem witness_StepRunsTheDecodedInstruction :
    decode (State.reset.withFetchWord 8 0x0B).hostIn = .ok (.t11, []) ∧ State.reset.hostIn = [] := ⟨rfl, rfl⟩

theorem witness_InadmissibleAccessIsRefused :
    (2 : Nat) ≠ 4 ∧ (0x006#12).toNat % 4 ≠ 0 ∧ (0x001#12).toNat % 4 ≠ 0 ∧ (0xFFF#12).toNat % 4 ≠ 0 ∧
      (0xFFC#12).toNat % 4 = 0 ∧
      ({ State.reset with hostIn := [.memRead 4 0x006#12] }).hostIn = .memRead 4 0x006#12 :: [] := by decide

theorem witness_RegReadAnswersTheRegisterMap :
    ∀ k : Fin 4, ([0x01C#12, 0x0FC#12, 0x1B4#12, 0xFFC#12][k]).toNat % 4 = 0 ∧
      (0x01C ≤ ([0x01C#12, 0x0FC#12, 0x1B4#12, 0xFFC#12][k]).toNat ∧
        ([0x01C#12, 0x0FC#12, 0x1B4#12, 0xFFC#12][k]).toNat < 0x100 ∨
        0x1B4 ≤ ([0x01C#12, 0x0FC#12, 0x1B4#12, 0xFFC#12][k]).toNat) := by decide

theorem witness_RegWriteActsByAddress :
    [0x004#12, 0x00C#12, 0x010#12, 0x018#12, 0x100#12, 0xFFC#12].all fun addr =>
      addr.toNat % 4 = 0 ∧ addr ≠ 0x000#12 ∧ addr ≠ 0x008#12 ∧ addr ≠ 0x014#12 := by decide

theorem witness_RecordsHaveTheirLayout :
    (plainSection (record 0)).frames.length = 98 ∧
      (⟨List.replicate 98 placeholder, record 0⟩ : F1Section).frames.length = 98 ∧
      (plainSection (record 0)).frames[0]? = some (Vector.replicate 32 Cell.zero) ∧
      (plainSection (record 0)).frames[97]? = some (Vector.replicate 32 Cell.zero) ∧
      (List.replicate 98 placeholder)[97]? = some placeholder := by decide

theorem witness_RecordsDetermineTheirSections :
    (plainSection (record 7)).frames.length = 98 ∧
      serializeF2 (plainSection (record 7)) = serializeF2 (plainSection (record 7)) ∧
      (⟨List.replicate 98 placeholder, record 7⟩ : F1Section).frames.length = 98 ∧
      serializeD24 ⟨List.replicate 98 placeholder, record 7⟩ =
        serializeD24 ⟨List.replicate 98 placeholder, record 7⟩ := ⟨by decide, rfl, by decide, rfl⟩

theorem witness_TokensAreRejectedWhileFatal :
    tokenOf (.pushTv 0xFFFFFF0B#32) = some 0x0B#8 ∧ tokenOf .tvZero = some 0#8 ∧ haltedState.fatal = true := by decide

theorem witness_TokensAreTakenAndCounted :
    tokenOf .t3 = some 3#8 ∧ tokenOf .t11 = some 11#8 ∧ tokenOf (.tvShort 2#2) = some 2#8 ∧
      tokenOf (.tvLong 12#8) = some 12#8 ∧ tokenOf .tvZero = some 0#8 ∧ State.reset.fatal = false ∧
      (after (exec .t3 State.reset)).map (fun s => s.fatal) = some false := by decide

theorem witness_SyncEntersExpectingSync :
    State.reset.fatal = false ∧ State.reset.tv.state = .expectingInitialSync ∧ State.reset.tv.buf = [] := by decide

theorem witness_TokensExpandToTheirRunLengths : (1#8 : Byte) ≠ 0 ∧ (255#8 : Byte) ≠ 0 := by decide

/-- Spans 22, 550, 551, 588, 599, 600, 1164, 1165 and 1187. -/
theorem witness_SyncPatternClosesTheSpan :
    [[11, 11], [11, 11, 255, 255, 18], [11, 11, 255, 255, 19], [11, 11] ++ rep 56 10 ++ [6], [11, 11, 255, 255, 67],
        [11, 11, 255, 255, 68], [11, 11, 255, 255, 255, 255, 122], [11, 11, 255, 255, 255, 255, 123],
        [11, 11, 255, 255, 255, 255, 145]].map
      (fun w => (firstSync w, findSync (w ++ [0x0B#8]) 2, tokenSum w)) =
    [(some 0, none, 22), (some 0, none, 550), (some 0, none, 551), (some 0, none, 588), (some 0, none, 599),
      (some 0, none, 600), (some 0, none, 1164), (some 0, none, 1165), (some 0, none, 1187)] := by decide

/-- The false sync at 3 or 5: merged spans 551 and 599, 550 and 600, 1187, and the boundary directly after the false
sync. -/
theorem witness_UndershootProbeResolvesTheSpan :
    [([11, 11, 200, 11, 11, 255, 52], 3), ([11, 11, 200, 11, 11, 255, 100], 3), ([11, 11, 200, 11, 11, 255, 51], 3),
        ([11, 11, 200, 11, 11, 255, 101], 3), ([11, 11, 200, 11, 11, 255, 255, 255, 178], 3),
        ([11, 11, 255, 255, 18, 11, 11], 5)].map
      (fun (w, j) => (decide (j + 2 ≤ w.length), findSync (w ++ [0x0B#8]) (j + 2), tokenSum w)) =
    [(true, none, 551), (true, none, 599), (true, none, 550), (true, none, 600), (true, none, 1187),
      (true, none, 572)] := by decide

/-- The probe without a boundary, the false sync at 3 after a span of 222 bits, or at 2 after a span of 22, the token
254 or 11: all bits pending, and the bits pending without the short span. -/
theorem witness_UndershootProbeResolvesTheSpan_timeout :
    [([11, 11, 200, 11, 11, 255, 255, 179], 254#8, 3), ([11, 11, 200, 11, 11, 255, 255, 180], 254#8, 3),
        ([11, 11, 200, 11, 11, 255, 255, 255, 146], 254#8, 3), ([11, 11, 200, 11, 11, 255, 255, 255, 147], 254#8, 3),
        ([11, 11, 11, 11, 255, 255, 255, 255, 124], 11#8, 2), ([11, 11, 11, 11, 255, 255, 255, 255, 145], 11#8, 2),
        ([11, 11, 11, 11, 255, 255, 255, 255, 146], 11#8, 2)].map
      (fun (w, t, j) => (decide (j + 2 ≤ w.length ∧ t ≠ 0), findSync (w ++ [t]) (j + 2),
        tokenSum (w ++ [t]) - 11 * (if t = 11#8 then 1 else 0),
        tokenSum (w.drop j ++ [t]) - 11 * (if t = 11#8 then 1 else 0))) =
    [(true, none, 1187, 965), (true, none, 1188, 966), (true, none, 1409, 1187), (true, none, 1410, 1188),
      (true, none, 1188, 1166), (true, none, 1209, 1187), (true, none, 1210, 1188)] := by decide

/-- 1188 pending bits, with and without a trailing 11. -/
theorem witness_SearchLimitDropsToInitialSync :
    (0x7E#8 ≠ 0 ∧ findSync ([11, 11, 255, 255, 255, 255, 20] ++ [0x7E#8]) 2 = none ∧
      tokenSum ([11, 11, 255, 255, 255, 255, 20] ++ [0x7E#8]) - 0 = 1188) ∧
    findSync ([11, 11, 255, 255, 255, 255, 146] ++ [0x0B#8]) 2 = none ∧
      tokenSum ([11, 11, 255, 255, 255, 255, 146] ++ [0x0B#8]) - 11 = 1188 := by decide

theorem witness_StepKeepsStageOneInvariant :
    Stage1Inv { State.reset with tv := expecting [11, 11], hostIn := [.token 0x03#8] }.tv ∧
      (after (step { State.reset with tv := expecting [11, 11], hostIn := [.token 0x03#8] })).isSome = true :=
  ⟨⟨by decide, by decide, by decide⟩, by decide⟩

/-- Each state of stage 1 that the invariant admits. -/
theorem witness_Stage1Inv : Stage1Inv ⟨[], .expectingInitialSync, 0⟩ ∧ Stage1Inv ⟨[11], .expectingInitialSync, 0⟩ ∧
    Stage1Inv ⟨[11, 11, 255, 11, 11], .handleUndershoot, 3⟩ :=
  ⟨⟨by decide, by decide⟩, ⟨by decide, by decide⟩, by decide, by decide, by decide, by decide, by decide, by decide⟩

theorem witness_ShortFramesMissTheLastSymbols :
    [551, 567, 568, 584, 585].map (fun n => (List.replicate n false).length) = [551, 567, 568, 584, 585] := by
  simp

theorem witness_SymbolsOfAFrameMatchItsConversion :
    585 ≤ (List.replicate 585 false).length ∧ State.reset.fatal = false ∧ State.reset.sym = none :=
  ⟨by rw [List.length_replicate], rfl, rfl⟩

theorem witness_SubcodeSymbolsSetTheFrameType :
    State.reset.fatal = false ∧ State.reset.sym = none ∧ Config.machine.efmDecode (symbolOf 255) = .byte 255#8 :=
  ⟨rfl, rfl, by rw [efmDecode_symbolOf]; decide⟩

/-- A frame with 0, 30 and 31 cells, a data byte and an error. -/
theorem witness_DataSymbolsFillTheFrame :
    (∀ n ∈ [0, 30, 31], (PartialFrame.mk .sync0 false (List.replicate n Cell.zero)).cells.length = n ∧ n ≤ 31) ∧
    ({ State.reset with sym := some ⟨.sync0, false, []⟩ }).fatal = false ∧
    (∃ b : Byte, Config.machine.efmDecode (symbolOf 7) = .byte b ∧
      Instr.symData (symbolOf 7) = .symData (symbolOf 7) ∧ Cell.mk 7#8 false false = ⟨b, false, false⟩ ∧
      State.reset.cnt = State.reset.cnt) ∧
    Instr.symInvalid (symbolOf 300) = .symInvalid (symbolOf 300) :=
  ⟨by decide, rfl, ⟨7#8, by rw [efmDecode_symbolOf]; decide, rfl, rfl, rfl⟩, rfl⟩

theorem witness_PadsStandAtTheirIndices :
    ∀ n ∈ [94, 97], 94 ≤ (List.replicate n (plainFrame .sync0)).length ∧
      (List.replicate n (plainFrame .sync0)).length ≤ 97 := by decide

theorem witness_SplitSectionsLoseNoFrame :
    ∀ n ∈ [0, 98, 196], (List.replicate n (plainFrame .sync0)).length % 98 = 0 := by simp

/-- Boundaries after 1, 93, 94, 97, 99, 195, 196, 197 and 392 frames, by a `Sync0` and by a `Sync1`. -/
theorem witness_ThirdBadBoundaryLosesSync :
    (∀ n ∈ [1, 93, 94, 97, 99, 195, 196, 197, 392], (List.replicate n (plainFrame .sync1)).length = n ∧ n ≠ 98) ∧
    (∀ a, BoundaryAt a (plainFrame .sync0) a [plainFrame .sync0]) ∧
    (∀ a, BoundaryAt (a ++ [plainFrame .sync1]) (plainFrame .sync1) a [plainFrame .sync1, plainFrame .sync1]) ∧
    (Stage3.mk .expectingSync [] none 2 none).state = .expectingSync ∧
    (Stage3.mk .expectingSync [] none 2 none).bad = 2 :=
  ⟨by simp, fun _ => .inl ⟨rfl, rfl, rfl⟩, fun _ => .inr ⟨_, rfl, by decide, rfl, rfl⟩, rfl, rfl⟩

/-- With the Q channel of V-SUB-2 #5 in the 98 frames before the boundary, and with the one of V-SUB-1. -/
theorem witness_ThirdBadBoundaryLosesSync_halt :
    (badBoundarySections (plainFrame .sync0 :: (subcodeOf qMode3).map fun b => plainFrame (.subcode b))).any
        (isMode3Section testParams) = true ∧
      (badBoundarySections (plainFrame .sync0 :: (subcodeOf qA).map fun b => plainFrame (.subcode b))).any
        (isMode3Section testParams) = false := by decide +kernel

theorem witness_StepKeepsStageThreeInvariant :
    Stage3Inv ⟨.expectingSync, [plainFrame .sync0], none, 2, none⟩ ∧
      Stage3Inv ⟨.expectingInitialSync, [], some (plainFrame .sync1), 0, some 5⟩ ∧
      (after (step { State.reset with
        f3 := ⟨.expectingSync, [plainFrame .sync0], none, 2, none⟩, hostIn := [.memWrite 4 0x000#12 1#32] })).isSome =
          true := by decide

theorem witness_QBitsAreAssembledMsbFirst : (0 : Nat) < 8 ∧ (7 : Nat) < 8 := by decide

/-- QA and the channel of V-SUB-2 #5, which halts, match; the subcode bytes carry QA with bit 80, bit 95 and the bits 3 and 50 flipped. -/
theorem witness_SingleBitRepairIsExact :
    crcOK 0x0000#16 qA = true ∧ assembleQ (subcodeOf qA) = qA ∧ assembleQ (subcodeOf qMode3) = qMode3 ∧
      crcOK 0x0000#16 qMode3 = true ∧ assembleQ (subcodeOf (flipQBit qA 80)) = flipQBit qA 80 ∧
      assembleQ (subcodeOf (flipQBit qA 95)) = flipQBit qA 95 ∧
      assembleQ (subcodeOf (flipQBit (flipQBit qA 3) 50)) = flipQBit (flipQBit qA 3) 50 ∧ (3 : Fin 96) ≠ 50 := by
  decide +kernel

theorem witness_DecodedRecordsHoldTheirFields :
    (match decodeQ qA false true with
      | .record m => m.isRepaired
      | .rejected => false
      | .mode3 => false) = true := by decide

/-- The Q channel of V-SUB-2 #5, as it is and with bit 50 flipped. -/
theorem witness_QModeThreeHaltsTheBlock :
    checkAndRepair testParams.qCrcInit (assembleQ (((subcodeOf qMode3).map fun b => plainFrame (.subcode b)).map
        subcodeByte)) = .good qMode3 false ∧
      checkAndRepair testParams.qCrcInit (assembleQ (((subcodeOf (flipQBit qMode3 50)).map
        fun b => plainFrame (.subcode b)).map subcodeByte)) = .good qMode3 true ∧ qMode3[0].toNat % 16 = 3 := by
  decide +kernel

theorem witness_FifthConsecutiveSectionSettles :
    ([100, 101, 102, 103].map fun t => plainSection (record t)).length = 4 ∧
      ([100, 101, 102, 103].map fun t => plainSection (record t)).getLast? = some (plainSection (record 103)) ∧
      (record 104).isValid = true ∧ (record 104).qMode ≠ .mode2 ∧
      absOf (record 104) = absOf (record 103) + 1 := by decide

theorem witness_ModeTwoTakesTheExpectedSecond :
    (0 : Int) ≤ 0 ∧ (2147483573 : Int) ≤ 2147483573 ∧ ({ record 74 with qMode := .mode2 } : SectionMeta).qMode = .mode2 ∧
      (record 74).qMode ≠ .mode2 := by decide

/-- V-S4 #7, and a mode-2 section corrected past its expected time. -/
theorem witness_UncorrectableGapHaltsTheBlock :
    (steadyAt 1 [plainSection (invalidMeta false)]).last = some (record 104) ∧ (1#32 : Word) ≠ 0 ∧
      absOf (record 104) + (1#32 : Word).toNat + 1 <
        absOf (correctMode2 testParams (absOf (record 104) + (1#32 : Word).toNat + 1)
          (plainSection (record 107))).info ∧
      absOf (record 104) + (1#32 : Word).toNat + 1 <
        absOf (correctMode2 testParams (absOf (record 104) + (1#32 : Word).toNat + 1)
          (plainSection { record 74 with qMode := .mode2 })).info := by decide

theorem witness_OutOfOrderSectionIsDropped :
    absOf (correctMode2 testParams (absOf (record 104) + (0#32 : Word).toNat + 1) (plainSection (record 104))).info <
        absOf (record 104) + (0#32 : Word).toNat + 1 ∧
      absOf (correctMode2 testParams (absOf (record 104) + (0#32 : Word).toNat + 1)
          (plainSection { record 0 with qMode := .mode2 })).info <
        absOf (record 104) + (0#32 : Word).toNat + 1 := by decide

/-- Gaps of 1, 5 and 6 sections: the halt with a bound of 0, and both kinds at the watermark 5. -/
theorem witness_GapIsFilledOrHalts :
    (∀ g ∈ [1, 5, 6], absOf (correctMode2 testParams (absOf (record 104) + 1)
        (plainSection (record (105 + BitVec.ofNat 32 g)))).info = absOf (record 104) + 1 + g) ∧
      (steadyAt 0 []).dist = 0 ∧ (∃ m, ({ testParams with maxGap := some 0 } : Params).maxGap = some m ∧ m < 1) ∧
      ¬ (∃ m, testParams.maxGap = some m ∧ m < 1) :=
  ⟨by decide, rfl, ⟨0, rfl, by decide⟩, by rintro ⟨m, h, -⟩; cases h⟩

/-- Two pending sections and the next one on time, and a gap of one section. -/
theorem witness_EmittedSectionsTakeTheirSlots :
    (steadyAt 2 [plainSection (invalidMeta false), plainSection (invalidMeta true)]).pending.length ≤
        (steadyAt 2 []).dist.toNat ∧
      (match stage4Take testParams 5#16 (plainSection (record 107))
          (steadyAt 2 [plainSection (invalidMeta false), plainSection (invalidMeta true)], zeroCounters) with
        | .ok _ out => out.length
        | .fatal _ _ => 0) = 3 ∧
      absOf (correctMode2 testParams (absOf (record 104) + (2#32 : Word).toNat + 1) (plainSection (record 107))).info =
        absOf (record 104) + (2#32 : Word).toNat + 1 ∧
      (record 104).relativeTime.toInt + (2 - 2 + 1 + 1) < 2147483648 ∧
      (match stage4Take testParams 5#16 (plainSection (record 106)) (steadyAt 0 [], zeroCounters) with
        | .ok _ out => out.length
        | .fatal _ _ => 0) = 2 := by decide

theorem witness_CleanStreamComesOutWhole :
    State.reset.fatal = false ∧ State.reset.f2c = ⟨.settle, [], none, [], 0⟩ ∧
      ∀ k : Fin 6, (record (100 + BitVec.ofNat 32 k.val)).isValid = true ∧
        (record (100 + BitVec.ofNat 32 k.val)).qMode ≠ .mode2 ∧
        absOf (record (100 + BitVec.ofNat 32 k.val)) = 100 + (k.val : Int) := by decide

theorem witness_StepKeepsStageFourInvariant :
    Stage4Inv (steadyAt 1 [plainSection (invalidMeta false)]) ∧ Stage4Inv State.reset.f2c ∧
      (after (step { State.reset with
        f2c := steadyAt 1 [plainSection (invalidMeta false)], hostIn := [.token 0x03#8] })).isSome = true := by decide

theorem witness_DelayLinesDelayByTheirLength :
    (∀ p : Fin 24, (DelaySet.fresh 24 dl2Len).lines[p].length = dl2Len p) ∧
      (dlRun dl2Len dl2Max (List.replicate 3 placeholder) (DelaySet.fresh 24 dl2Len)).length = 3 := by decide

theorem witness_PrimingGivesExactly111Placeholders :
    ∃ y, (decodeFrames testParams (List.replicate 112 paddingKindFrame) (stage5Flush, zeroCounters)).1[110]? = some y :=
  ⟨_, List.getElem?_eq_getElem (by rw [decodeFrames_length, List.length_replicate]; decide)⟩

/-- The frame of number 111, its bytes coming from frames that are there. -/
theorem witness_DataComesOutAtItsLatency :
    (∀ cw e, testParams.rsC1 cw e = some cw) ∧ (∀ cw e, testParams.rsC2 cw e = some cw) ∧
      testParams.deinterleave = Config.deinterleaveDefault ∧
      (∃ y, (decodeFrames testParams (List.replicate 112 paddingKindFrame) (stage5Flush, zeroCounters)).1[111]? =
        some y) ∧
      ∀ i : Fin 24, ∃ x, (List.replicate 112 paddingKindFrame)[111 - r407Latency i]? = some x := by
  exact ⟨fun _ _ => rfl, fun _ _ => rfl, rfl,
    ⟨_, List.getElem?_eq_getElem (by rw [decodeFrames_length, List.length_replicate]; decide)⟩,
    fun i => ⟨_, List.getElem?_eq_getElem (by rw [List.length_replicate]; omega)⟩⟩

theorem witness_UnswapExchangesBytePairs : (1 : Fin 24).val = (0 : Fin 24).val ^^^ 1 ∧
    (22 : Fin 24).val = (23 : Fin 24).val ^^^ 1 := by decide

theorem witness_StepKeepsDelayLineLengths :
    Stage5Inv State.reset.circ ∧ (after (step (State.reset.withFetchWord 8 0x03))).isSome = true := by
  refine ⟨⟨⟨?_, by decide⟩, ⟨?_, by decide⟩, ⟨?_, by decide⟩⟩, by decide⟩ <;> intro p <;>
    simp [State.reset, DelaySet.fresh]

theorem witness_StepKeepsSectionsWhole :
    SectionsWhole { State.reset with
      f2Out := [plainSection (record 5)], f2c := steadyAt 1 [plainSection (invalidMeta false)],
      hostIn := [.memWrite 4 0x000#12 1#32] } ∧
    (after (step { State.reset with
      f2Out := [plainSection (record 5)], f2c := steadyAt 1 [plainSection (invalidMeta false)],
      hostIn := [.popF2] })).isSome = true := by
  refine ⟨⟨?_, ?_, ?_, ?_⟩, by decide⟩ <;> decide

theorem witness_StepKeepsFatalRegistersConsistent :
    FatalInv haltedState ∧ FatalInv State.reset ∧ FatalInv (raiseFatal ⟨.unsupportedQMode3, 0, 0⟩ State.reset) ∧
      (after (step { haltedState with hostIn := [.token 0x03#8] })).isSome = true := by decide

theorem witness_FatalStateIsSticky :
    haltedState.fatal = true ∧ isReset .t3 = false ∧ isReset (.flush 0) = false ∧ isReset (.symSync0 0) = false ∧
      (after (exec .t3 haltedState)).isSome = true := by decide

/-- A flush that is ignored, and one that ends without the halt. -/
theorem witness_FlushReleasesTheTerminalUnits : haltedState.fatal = true ∧ State.reset.fatal = false ∧
    (after (exec (.flush 0) State.reset)).map (fun s => s.fatal) = some false := by decide

/-- 98 frames whose Q channel is all zeros are finished as a section, whatever the CRC: no single flip makes mode 3. -/
theorem witness_FlushReleasesTheTerminalUnits_section (x : S3) :
    ∃ y sec, finish Config.machine (List.replicate 98 (plainFrame .sync0)) x = .ok y sec := by
  have hq : assembleQ ((List.replicate 98 (plainFrame .sync0)).map subcodeByte) = Vector.replicate 12 0 := by decide
  have hflip : ∀ i : Fin 96, (flipQBit (Vector.replicate 12 0) i)[0].toNat % 16 ≠ 3 := by decide +kernel
  obtain ⟨cnt, m, h⟩ := finish_of_not_mode3 (c := Config.machine) x
    (frames := List.replicate 98 (plainFrame .sync0)) (by
      unfold isMode3Section checkAndRepair
      rw [hq]
      split
      · rename_i h
        split at h
        · cases h; decide
        · split at h <;> cases h
          simpa using hflip _
      · rfl)
  exact ⟨_, _, h⟩

/-- 98 frames that carry a Q channel of mode 3 with the machine's own CRC raise the halt. -/
theorem witness_FlushReleasesTheTerminalUnits_halt (x : S3) :
    ∃ frames y info, frames.length = 98 ∧ finish Config.machine frames x = .fatal y info := by
  obtain ⟨v, hv⟩ : ∃ v, v = crc Config.machine.qCrcInit [3, 0, 0, 0, 0, 0, 0, 0, 0, 0] := ⟨_, rfl⟩
  let q : QChannel := #v[3, 0, 0, 0, 0, 0, 0, 0, 0, 0, v.extractLsb' 8 8, v.extractLsb' 0 8]
  let bit (i : Nat) : Byte := if (q[i / 8]?.getD 0).getLsbD (7 - i % 8) then 0x40#8 else 0x00#8
  have hbyte : ∀ b : Byte, byteOfBits (fun j => b.getLsbD (7 - j)) = b := by decide +kernel
  have hbit : ∀ b : Bool, (if b then 0x40#8 else 0x00#8 : Byte).getLsbD 6 = b := by decide
  let sub : List Byte := List.ofFn fun i : Fin 98 => bit (i.val - 2)
  have hq : assembleQ sub = q := by
    apply Vector.ext
    intro k hk
    simp only [assembleQ, Vector.getElem_ofFn]
    rw [← hbyte q[k]]
    unfold byteOfBits
    congr 1
    apply List.foldl_ext
    intro acc j hj
    have hj8 := List.mem_range.1 hj
    have hi : sub.getD (2 + (8 * k + j)) 0 = bit (8 * k + j) := by
      rw [List.getD_eq_getElem?_getD, List.getElem?_ofFn, dif_pos (by omega), Option.getD_some]
      congr 1
      exact Nat.add_sub_cancel_left ..
    simp only [hi, bit, hbit, show (8 * k + j) / 8 = k by omega, show (8 * k + j) % 8 = j by omega,
      Vector.getElem?_eq_getElem hk, Option.getD_some]
  have hsub : (sub.map fun b => plainFrame (.subcode b)).map subcodeByte = sub := by
    simp only [List.map_map, Function.comp_def, subcodeByte, plainFrame, List.map_id']
  have hc : crcOK Config.machine.qCrcInit q = true := by
    have h10 : q.toList.take 10 = [3, 0, 0, 0, 0, 0, 0, 0, 0, 0] := rfl
    simp only [crcOK, h10, ← hv, beq_iff_eq]
    show v = v.extractLsb' 8 8 ++ v.extractLsb' 0 8
    apply BitVec.eq_of_getLsbD_eq
    intro i hi
    rw [BitVec.getLsbD_append, BitVec.getLsbD_extractLsb', BitVec.getLsbD_extractLsb']
    interval_cases i <;> simp
  obtain ⟨cnt, h⟩ := finish_of_mode3 (c := Config.machine) x
    (frames := sub.map fun b => plainFrame (.subcode b)) (by
      simp only [isMode3Section, hsub, hq, checkAndRepair, hc, if_true]
      rfl)
  exact ⟨_, _, _, rfl, h⟩

theorem witness_OutputQueuesGrowInPairs :
    isReset (.flush 0) = false ∧ isPop (.flush 0) = false ∧ (after (exec (.flush 0) State.reset)).isSome = true := by
  decide

theorem witness_HostStateHasItsWriters :
    isReset .t3 = false ∧ (∀ v, Instr.t3 ≠ .regWrite 0x008#12 v) ∧ (∀ addr, Instr.t3 ≠ .regRead addr) ∧
      isPop .t3 = false ∧ (after (exec .t3 State.reset)).isSome = true :=
  ⟨by decide, by simp, by simp, by decide, by decide⟩

end Sys2Proof.Tests
end

section
/-! The symbol at a channel-bit index (R13, R250), and what a step does with what the ports decode to (R6, R583). -/

namespace Sys2Proof.Machine

/-! ### Bits read first in time as the highest -/

/-- Reading one more bit doubles the weight of the bits before it. -/
theorem sum_weighted_bits_succ (bit : Nat → Bool) (n : Nat) :
    ((List.range (n + 1)).map fun k => (bit k).toNat * 2 ^ (n - k)).sum =
      2 * ((List.range n).map fun k => (bit k).toNat * 2 ^ (n - 1 - k)).sum + (bit n).toNat := by
  have hdouble : ∀ k ∈ List.range n,
      (bit k).toNat * 2 ^ (n - k) = 2 * ((bit k).toNat * 2 ^ (n - 1 - k)) := by
    intro k hk
    have hk := List.mem_range.1 hk
    rw [show n - k = n - 1 - k + 1 by omega, Nat.pow_succ]
    ring
  rw [List.range_succ, List.map_append, List.sum_append, List.map_congr_left hdouble, List.sum_map_mul_left]
  simp

/-- The bits shifted in one after the other have the value of their weighted sum, the first with the highest weight. -/
theorem foldl_bits_eq_sum (bit : Nat → Bool) (n : Nat) :
    (List.range n).foldl (fun acc k => 2 * acc + (bit k).toNat) 0 =
      ((List.range n).map fun k => (bit k).toNat * 2 ^ (n - 1 - k)).sum := by
  induction n with
  | zero => rfl
  | succ n ih =>
    rw [Nat.add_sub_cancel, sum_weighted_bits_succ, ← ih, List.range_succ, List.foldl_append]
    rfl

/-- `n` bits shifted in fit `n` bits. -/
theorem foldl_bits_lt (bit : Nat → Bool) (n : Nat) :
    (List.range n).foldl (fun acc k => 2 * acc + (bit k).toNat) 0 < 2 ^ n := by
  induction n with
  | zero => exact Nat.one_pos
  | succ n ih =>
    have hbit : (bit n).toNat < 2 := Bool.toNat_lt _
    rw [List.range_succ, List.foldl_append, List.foldl_cons, List.foldl_nil, Nat.pow_succ]
    omega

/-- Settles O27: the 14 bits shifted in fit a symbol, so its value is their weighted sum. -/
theorem symbolValueIsTheSumOfItsBits : Obligations.SymbolValueIsTheSumOfItsBits := by
  intro cf a
  rw [symbolAt, BitVec.toNat_ofNat, Nat.mod_eq_of_lt (foldl_bits_lt (fun k => cf.getD (a + k) false) 14)]
  exact foldl_bits_eq_sum (fun k => cf.getD (a + k) false) 14

/-! ### A step by what the decoder answers -/

/-- Items that decode are run on the state without them (R6). -/
theorem step_of_decode_ok {s : State} {i : Instr} {rest : List PortItem} (h : decode s.hostIn = .ok (i, rest)) :
    step s = exec i { s with hostIn := rest } := by
  simp only [step, fetchAction, h]

/-- Items that the decoder rejects are answered by what the rejection means at the ports (R102). -/
theorem fetchAction_of_decode_error {s : State} {e : DecodeError} (h : decode s.hostIn = .error e) :
    fetchAction s = rejected e := by
  simp only [fetchAction, h]

/-- With no item waiting the block does nothing (R583). -/
theorem step_of_no_input {s : State} (h : s.hostIn = []) : step s = .next s := by
  have hdec : decode s.hostIn = .error .noInput := by rw [h, decode_nil]
  simp only [step, fetchAction_of_decode_error hdec, rejected]

/-- Settles O5, by the decoder's answer. -/
theorem stepRunsTheDecodedInstruction : Obligations.StepRunsTheDecodedInstruction :=
  fun _ => ⟨fun _ _ => step_of_decode_ok, step_of_no_input⟩

end Sys2Proof.Machine
end

section
/-! Stage 1 keeps its invariant: what each rule of the stage loop leaves, and that the loop ends by waiting
(R205 to R213, R215). -/

namespace Sys2Proof.Machine

/-! ### The matcher -/

/-- The first sync pattern stands where `firstSync` says, with both its tokens. -/
theorem firstSync_drop {s : List Byte} {i : Nat} (h : firstSync s = some i) :
    firstSync (s.drop i) = some 0 ∧ i + 2 ≤ s.length := by
  induction s generalizing i with
  | nil => cases h
  | cons a s ih =>
    cases s with
    | nil => cases h
    | cons b rest =>
      rw [firstSync] at h
      split at h
      · next hab =>
        obtain rfl := Option.some.inj h
        exact ⟨firstSync_eq_zero.2 ⟨rest, by simp [hab]⟩, by simp⟩
      · obtain ⟨k, hk, rfl⟩ := Option.map_eq_some_iff.1 h
        obtain ⟨hsync, hlen⟩ := ih hk
        exact ⟨hsync, by simpa using hlen⟩

/-- The sync pattern that `findSync` finds is a whole one, at or after the start of the search (R202). -/
theorem findSync_drop {s : List Byte} {start j : Nat} (h : findSync s start = some j) :
    firstSync (s.drop j) = some 0 ∧ start ≤ j ∧ j + 2 ≤ s.length := by
  obtain ⟨i, hi, rfl⟩ := Option.map_eq_some_iff.1 h
  obtain ⟨hsync, hlen⟩ := firstSync_drop hi
  rw [List.drop_drop] at hsync
  rw [List.length_drop] at hlen
  exact ⟨hsync, by omega, by omega⟩

/-- At most one token 11 is not yet pending (R204). -/
theorem tokenSum_le_pendingBits (s : List Byte) : tokenSum s ≤ pendingBits s + 11 := by
  unfold pendingBits
  split <;> omega

/-- What initial sync and lost sync leave of the buffer: a trailing token 11, or nothing (R206, R212). -/
theorem drop_to_trailing_syncToken (s : List Byte) :
    let rest := s.drop (s.length - if endsInSyncToken s then 1 else 0)
    rest = [] ∨ rest = [tvSyncToken] := by
  cases h : endsInSyncToken s with
  | false => simp
  | true =>
    obtain ⟨front, rfl⟩ := List.getLast?_eq_some_iff.1 (eq_of_beq h)
    simp

/-! ### The loop's invariant -/

/-- Stage 1 between two rules of the stage loop: as `Stage1Inv`, but nothing bounds the buffer yet, and before the
initial sync it may hold any tokens. -/
def Stage1Running (st : Stage1) : Prop :=
  (∀ t ∈ st.buf, t ≠ 0) ∧
    match st.state with
    | .expectingInitialSync => True
    | .expectingSync => firstSync st.buf = some 0
    | .handleUndershoot =>
      firstSync st.buf = some 0 ∧ 2 ≤ st.undJ ∧ firstSync (st.buf.drop st.undJ) = some 0 ∧
        spanTo st.buf st.undJ < tvAcceptMin
    | .handleOvershoot => False

/-- A bound on the rules that stage 1 can still run: every token is dropped at most once, and a state other than the
undershoot probe can pass its buffer on once more without dropping a token. -/
def stage1Measure (st : Stage1) : Nat :=
  2 * st.buf.length +
    match st.state with
    | .expectingInitialSync => 2
    | .expectingSync => 1
    | .handleUndershoot => 0
    | .handleOvershoot => 0

/-- What a rule of the stage loop does from `st`: it goes on with less to do, or it waits with stage 1's invariant. -/
def Stage1Progress (st : Stage1) (r : Stage1Result) : Prop :=
  (r.again = true → Stage1Running r.st ∧ stage1Measure r.st < stage1Measure st) ∧
    (r.again = false → Stage1Inv r.st)

/-- Tokens dropped from the front leave no token 0 behind. -/
theorem forall_ne_zero_drop {s : List Byte} (h : ∀ t ∈ s, t ≠ 0) (j : Nat) : ∀ t ∈ s.drop j, t ≠ 0 :=
  fun t ht => h t (List.mem_of_mem_drop ht)

/-- Tokens appended to a sync pattern leave it the first. -/
theorem firstSync_append {s : List Byte} (h : firstSync s = some 0) (more : List Byte) :
    firstSync (s ++ more) = some 0 := by
  obtain ⟨rest, rfl⟩ := firstSync_eq_zero.1 h
  exact firstSync_eq_zero.2 ⟨rest ++ more, rfl⟩

/-- A rule that drops the tokens before a later sync pattern and expects the next one makes progress. -/
theorem stage1Progress_resume {st : Stage1} {j : Nat} (u : Nat) (cnt : Counters) (frames : List ChannelFrame)
    (hz : ∀ t ∈ st.buf, t ≠ 0) (hj : 1 ≤ j) (hlen : j ≤ st.buf.length) (hsync : firstSync (st.buf.drop j) = some 0) :
    Stage1Progress st ⟨⟨st.buf.drop j, .expectingSync, u⟩, cnt, frames, true⟩ := by
  refine ⟨fun _ => ⟨⟨forall_ne_zero_drop hz j, hsync⟩, ?_⟩, nofun⟩
  simp only [stage1Measure, List.length_drop]
  omega

/-- The buffer that a rule waits with is within the search limit (R207, R211). -/
theorem tokenSum_le_of_pendingBits {s : List Byte} (h : ¬ tvSyncSearchLimit < pendingBits s) :
    tokenSum s ≤ tvSyncSearchLimit + 22 := by
  have := tokenSum_le_pendingBits s
  omega

/-! ### The rules -/

/-- Initial sync (R206). -/
theorem tvInitialSync_progress {st : Stage1} (cnt : Counters) (hz : ∀ t ∈ st.buf, t ≠ 0)
    (hst : st.state = .expectingInitialSync) : Stage1Progress st (tvInitialSync st cnt) := by
  unfold tvInitialSync
  split
  · next i hi =>
    obtain ⟨hsync, -, -⟩ := findSync_drop hi
    refine ⟨fun _ => ⟨⟨forall_ne_zero_drop hz i, hsync⟩, ?_⟩, nofun⟩
    simp only [stage1Measure, List.length_drop, hst]
    omega
  · refine ⟨nofun, fun _ => ⟨forall_ne_zero_drop hz _, ?_⟩⟩
    simp only [hst]
    exact drop_to_trailing_syncToken st.buf

/-- Lost sync (R212). -/
theorem tvLostSync_progress {st : Stage1} (cnt : Counters) (hz : ∀ t ∈ st.buf, t ≠ 0)
    (hst : st.state = .expectingSync) (hsync : firstSync st.buf = some 0) :
    Stage1Progress st (tvLostSync st cnt) := by
  refine ⟨fun _ => ⟨⟨forall_ne_zero_drop hz _, trivial⟩, ?_⟩, nofun⟩
  obtain ⟨-, hlen⟩ := firstSync_drop hsync
  have hrest : (tvLostSync st cnt).st.buf.length ≤ 1 := by
    rcases drop_to_trailing_syncToken st.buf with h | h <;>
      simp [tvLostSync, h]
  simp only [stage1Measure, tvLostSync, hst] at hrest ⊢
  omega

/-- Look for the next sync (R207 to R209). -/
theorem tvExpectSync_progress {st : Stage1} (cnt : Counters) (hz : ∀ t ∈ st.buf, t ≠ 0)
    (hst : st.state = .expectingSync) (hsync : firstSync st.buf = some 0) :
    Stage1Progress st (tvExpectSync st cnt) := by
  unfold tvExpectSync
  split
  · next j hj =>
    obtain ⟨hnext, hge, hlen⟩ := findSync_drop hj
    have resume := fun cnt frames =>
      stage1Progress_resume st.undJ cnt frames hz (j := j) (by omega) (by omega) hnext
    split
    · simpa only [tvAccept, hst] using resume _ _
    split
    · next hshort =>
      refine ⟨fun _ => ⟨⟨hz, hsync, hge, hnext, hshort⟩, ?_⟩, nofun⟩
      simp only [stage1Measure, hst]
      omega
    · simp only [tvOvershoot]
      split
      · exact resume _ _
      · exact resume _ _
  · split
    · exact tvLostSync_progress cnt hz hst hsync
    · next hpend =>
      refine ⟨nofun, fun _ => ⟨hz, ?_⟩⟩
      simp only [hst]
      exact ⟨hsync, tokenSum_le_of_pendingBits hpend⟩

/-- Undershoot probe and timeout (R211, R213). -/
theorem tvUndershoot_progress {st : Stage1} (cnt : Counters) (hrun : Stage1Running st)
    (hst : st.state = .handleUndershoot) : Stage1Progress st (tvUndershoot st cnt) := by
  obtain ⟨hz, hundershoot⟩ := hrun
  simp only [hst] at hundershoot
  obtain ⟨hsync, hge, hnext, hshort⟩ := hundershoot
  obtain ⟨-, hlen⟩ := firstSync_drop hnext
  rw [List.length_drop] at hlen
  have giveUp := fun cnt => stage1Progress_resume st.undJ cnt [] hz (j := st.undJ) (by omega) (by omega) hnext
  unfold tvUndershoot
  split
  · next k hk =>
    obtain ⟨hmerged, hkge, hklen⟩ := findSync_drop hk
    split
    · exact stage1Progress_resume st.undJ _ _ hz (by omega) (by omega) hmerged
    · exact giveUp _
  · split
    · exact giveUp _
    · next hpend =>
      refine ⟨nofun, fun _ => ⟨hz, ?_⟩⟩
      simp only [hst]
      exact ⟨hsync, tokenSum_le_of_pendingBits hpend, hge, hnext, hshort⟩

/-- Every rule goes on with less to do or waits with the invariant (R205). -/
theorem stage1Rule_progress {st : Stage1} (cnt : Counters) (hrun : Stage1Running st) :
    Stage1Progress st (stage1Rule st cnt) := by
  have ⟨hz, hstate⟩ := hrun
  unfold stage1Rule
  split
  · next h => exact tvInitialSync_progress cnt hz h
  · next h =>
    simp only [h] at hstate
    exact tvExpectSync_progress cnt hz h hstate
  · next h => exact tvUndershoot_progress cnt hrun h
  · next h => simp only [h] at hstate

/-! ### The loop, a token, the flush -/

/-- A loop with rules enough ends by waiting, with the invariant (R205, entry 12). -/
theorem stage1Loop_keeps_inv {fuel : Nat} {st : Stage1} (cnt : Counters) (hrun : Stage1Running st)
    (hfuel : stage1Measure st < fuel) : Stage1Inv (stage1Loop fuel st cnt).st := by
  induction fuel generalizing st cnt with
  | zero => omega
  | succ fuel ih =>
    obtain ⟨hagain, hwait⟩ := stage1Rule_progress cnt hrun
    rw [stage1Loop_succ]
    split
    · next h =>
      obtain ⟨hrun', hless⟩ := hagain h
      exact ih _ hrun' (by omega)
    · next h => exact hwait (by simpa using h)

/-- The loop's bound is enough for its measure (entry 12). -/
theorem stage1Measure_lt_fuel (st : Stage1) : stage1Measure st < stage1Fuel st := by
  unfold stage1Measure stage1Fuel
  split <;> omega

/-- A token other than 0 appended between host actions starts the loop in its invariant (R200). -/
theorem stage1Running_append {st : Stage1} {t : Byte} (ht : t ≠ 0) (h : Stage1Inv st) :
    Stage1Running { st with buf := st.buf ++ [t] } := by
  obtain ⟨buf, state, undJ⟩ := st
  obtain ⟨hz, hstate⟩ := h
  refine ⟨by simpa [or_imp, forall_and] using ⟨hz, ht⟩, ?_⟩
  cases state with
  | expectingInitialSync => trivial
  | expectingSync => exact firstSync_append hstate.1 [t]
  | handleUndershoot =>
    obtain ⟨hsync, -, hge, hnext, hshort⟩ := hstate
    obtain ⟨-, hlen⟩ := firstSync_drop hnext
    simp only [List.length_drop] at hlen
    have hle : undJ ≤ buf.length := by omega
    refine ⟨firstSync_append hsync [t], hge, ?_, ?_⟩
    · simpa only [List.drop_append_of_le_length hle] using firstSync_append hnext [t]
    · simpa only [spanTo, List.take_append_of_le_length hle] using hshort
  | handleOvershoot => exact hstate

/-- Stage 1 keeps its invariant over a token (R200). -/
theorem stage1Take_keeps_inv (t : Byte) {st : Stage1} (cnt : Counters) (h : Stage1Inv st) :
    Stage1Inv (stage1Take t st cnt).st := by
  unfold stage1Take
  split
  · exact h
  · next ht => exact stage1Loop_keeps_inv _ (stage1Running_append ht h) (stage1Measure_lt_fuel _)

/-- Stage 1 in its reset state. -/
theorem stage1Inv_idle : Stage1Inv ⟨[], .expectingInitialSync, 0⟩ := ⟨nofun, .inl rfl⟩

/-- A flush leaves stage 1 in its reset state (R215). -/
theorem stage1Flush_st (st : Stage1) (cnt : Counters) :
    (stage1Flush st cnt).st = ⟨[], .expectingInitialSync, 0⟩ := by
  simp only [stage1Flush, apply_ite Stage1Result.st, ite_self]

end Sys2Proof.Machine
end

section
/-! Stage 3 keeps its invariant: what a boundary, an overflow and a flush leave (R281 to R292, R297). -/

namespace Sys2Proof.Machine

/-- The stage state a unit leaves, whether it raised the fatal halt or not. -/
def Flow.state {σ α : Type} : Flow σ α → σ
  | .ok st _ => st
  | .fatal st _ => st

@[simp] theorem Flow.state_ok {σ α : Type} (st : σ) (out : α) : (Flow.ok st out).state = st := rfl
@[simp] theorem Flow.state_fatal {σ α : Type} (st : σ) (info : FatalInfo) :
    (Flow.fatal st info : Flow σ α).state = st := rfl

theorem Flow.state_of_ok {σ α : Type} {r : Flow σ α} {st : σ} {out : α} (h : r = .ok st out) : r.state = st := by
  rw [h, Flow.state_ok]

theorem Flow.state_of_fatal {σ α : Type} {r : Flow σ α} {st : σ} {info : FatalInfo} (h : r = .fatal st info) :
    r.state = st := by
  rw [h, Flow.state_fatal]

/-! ### Finishing sections -/

/-- Finishing sections keeps the invariant if the rest of the rule establishes it, whatever `s3_last_abs` has
become. -/
theorem finishThen_keeps_inv {c : Params} (pieces : List (List F3Frame)) {rest : S3 → S3} {x : S3}
    (h : Stage3Inv x.1) (hrest : ∀ lastAbs cnt, Stage3Inv (rest ({ x.1 with lastAbs := lastAbs }, cnt)).1) :
    Stage3Inv (finishThen c pieces rest x).state.1 := by
  rcases finishThen_spec c pieces rest x with ⟨cnt, secs, he, -⟩ | ⟨lastAbs, cnt, he⟩
  · rw [Flow.state_of_ok he]
    exact hrest _ cnt
  · rw [Flow.state_of_fatal he]
    exact h

/-- The halt of stage 3 is that of Q-mode 3 (R479). -/
theorem finishThen_fatal {c : Params} {pieces : List (List F3Frame)} {rest : S3 → S3} {x y : S3} {info : FatalInfo}
    (h : finishThen c pieces rest x = .fatal y info) : info = ⟨.unsupportedQMode3, 0, 0⟩ := by
  rcases finishThen_spec c pieces rest x with ⟨cnt, secs, he, -⟩ | ⟨lastAbs, cnt, he⟩
  · cases he.symm.trans h
  · cases he.symm.trans h
    rfl

/-! ### Boundaries -/

/-- A boundary starts the accumulation again with one or two frames (R279). -/
theorem f3Boundary_start {acc a b : List F3Frame} {f : F3Frame} (h : f3Boundary acc f = some (a, b)) :
    b ≠ [] ∧ b.length ≤ 2 := by
  unfold f3Boundary at h
  split at h
  · cases h
    simp
  · split at h
    · split at h
      · cases h
      · cases h
        simp
    · cases h
  · cases h

/-- An accumulation in `ExpectingSync` that is at most too long keeps the invariant over the check (R283). -/
theorem f3CheckOverflow_keeps_inv {x : S3} (hbad : x.1.bad ≤ 2) (hstate : x.1.state = .expectingSync)
    (hacc : x.1.acc ≠ []) (hprev : x.1.prev = none) : Stage3Inv (f3CheckOverflow x).1 := by
  unfold f3CheckOverflow
  split
  · simp [Stage3Inv, f3DropSync]
  · next hlen => exact ⟨not_lt.1 hlen, hbad, by simp [hstate, hacc], fun _ => hprev⟩

/-- The third bad boundary drops to initial sync, so fewer than three stay counted (R291, R292). -/
theorem f3BadBoundary_keeps_inv {x : S3} (h : Stage3Inv x.1) : Stage3Inv (f3BadBoundary x).1 := by
  obtain ⟨hlen, hbad, hstate, hprev⟩ := h
  simp only [f3BadBoundary, f3BadSyncLimit]
  split
  · simp [Stage3Inv, f3DropSync]
  · exact ⟨hlen, by dsimp only; omega, hstate, hprev⟩

/-- What a boundary finishes, and what it starts, keep the invariant (R284 to R292). -/
theorem f3Dispatch_keeps_inv {c : Params} {a b : List F3Frame} {x : S3} (h : Stage3Inv x.1)
    (hstate : x.1.state = .expectingSync) (hb : b ≠ []) (hlen : b.length ≤ 2) :
    Stage3Inv (f3Dispatch c a b x).state.1 := by
  have ⟨_, hbad, _, hprev⟩ := h
  have start : ∀ (bad : Nat) (lastAbs : Option Word), bad ≤ 2 →
      Stage3Inv { x.1 with acc := b, bad := bad, lastAbs := lastAbs } := fun bad lastAbs hbad =>
    ⟨hlen.trans (by decide), hbad, by simp [hstate, hb], hprev⟩
  have counted : ∀ r : Flow S3 (List F2Section), Stage3Inv r.state.1 →
      Stage3Inv (flowThen f3BadBoundary r).state.1 := by
    rintro (⟨y, secs⟩ | ⟨y, info⟩) hy
    · exact f3BadBoundary_keeps_inv hy
    · exact hy
  unfold f3Dispatch
  dsimp only
  split
  · exact finishThen_keeps_inv _ h fun lastAbs _ => start 0 lastAbs (by omega)
  split
  · split
    · exact counted _ (f3CheckOverflow_keeps_inv hbad hstate (by simp [hb]) (hprev hstate))
    · exact counted _ (finishThen_keeps_inv _ h fun lastAbs _ => start _ lastAbs hbad)
  split
  · exact counted _ (finishThen_keeps_inv _ h fun lastAbs _ => start _ lastAbs hbad)
  · exact counted _ (finishThen_keeps_inv _ h fun lastAbs _ => start _ lastAbs hbad)

/-! ### A frame, the flush -/

/-- Initial sync holds no frames but `f3_prev`, and starts with one or two (R281). -/
theorem f3InitialSync_keeps_inv {f : F3Frame} {x : S3} (h : Stage3Inv x.1)
    (hstate : x.1.state = .expectingInitialSync) : Stage3Inv (f3InitialSync f x).1 := by
  obtain ⟨hlen, hbad, hacc, -⟩ := h
  have hempty := hacc.1 hstate
  unfold f3InitialSync
  split <;> simp [Stage3Inv, f3AccumLimit, hstate, hempty, hbad]

/-- Stage 3 keeps its invariant over a frame (R280). -/
theorem stage3Take_keeps_inv (c : Params) (f : F3Frame) {x : S3} (h : Stage3Inv x.1) :
    Stage3Inv (stage3Take c f x).state.1 := by
  simp only [stage3Take]
  split
  · next hstate => exact f3InitialSync_keeps_inv h hstate
  · next hstate =>
    have ⟨_, hbad, _, hprev⟩ := h
    unfold f3ExpectSync
    split
    · next a b hab =>
      obtain ⟨hb, hlen⟩ := f3Boundary_start hab
      exact f3Dispatch_keeps_inv h hstate hb hlen
    · exact f3CheckOverflow_keeps_inv hbad hstate (by simp) (hprev hstate)

/-- Stage 3 in its reset state. -/
theorem stage3Inv_idle : Stage3Inv ⟨.expectingInitialSync, [], none, 0, none⟩ := by decide

/-- Stage 3 keeps its invariant over a flush (R297). -/
theorem stage3Flush_keeps_inv (c : Params) {x : S3} (h : Stage3Inv x.1) : Stage3Inv (stage3Flush c x).state.1 := by
  unfold stage3Flush
  split
  · exact finishThen_keeps_inv _ h fun _ _ => stage3Inv_idle
  · exact stage3Inv_idle

/-! ### The halt -/

/-- The halt raised by a boundary is that of Q-mode 3 (R289, R479). -/
theorem f3Dispatch_fatal {c : Params} {a b : List F3Frame} {x y : S3} {info : FatalInfo}
    (h : f3Dispatch c a b x = .fatal y info) : info = ⟨.unsupportedQMode3, 0, 0⟩ := by
  have counted : ∀ r : Flow S3 (List F2Section), flowThen f3BadBoundary r = .fatal y info → r = .fatal y info := by
    rintro (⟨z, secs⟩ | ⟨z, info'⟩) hr <;> cases hr
    rfl
  unfold f3Dispatch at h
  dsimp only at h
  split at h
  · exact finishThen_fatal h
  split at h
  · split at h
    · cases h
    · exact finishThen_fatal (counted _ h)
  split at h
  · exact finishThen_fatal (counted _ h)
  · exact finishThen_fatal (counted _ h)

/-- The halt raised by a frame is that of Q-mode 3 (R280, R479). -/
theorem stage3Take_fatal {c : Params} {f : F3Frame} {x y : S3} {info : FatalInfo}
    (h : stage3Take c f x = .fatal y info) : info = ⟨.unsupportedQMode3, 0, 0⟩ := by
  simp only [stage3Take, f3ExpectSync] at h
  split at h
  · cases h
  · split at h
    · exact f3Dispatch_fatal h
    · cases h

/-- The halt raised by a flush of stage 3 is that of Q-mode 3 (R297, R479). -/
theorem stage3Flush_fatal {c : Params} {x y : S3} {info : FatalInfo} (h : stage3Flush c x = .fatal y info) :
    info = ⟨.unsupportedQMode3, 0, 0⟩ := by
  unfold stage3Flush at h
  split at h
  · exact finishThen_fatal h
  · cases h

end Sys2Proof.Machine
end

section
/-! Stage 4 keeps its invariant: what the settle phase, the steady phase and a flush leave (R332 to R348). -/

namespace Sys2Proof.Machine

/-! ### Settle phase -/

/-- A valid section appended to the run of the settle phase is a shorter run, or the fifth, which starts the steady
phase (R335). -/
theorem settleAppend_keeps_inv {sec : F2Section} {x : S4} (h : Stage4Inv x.1) (hphase : x.1.phase = .settle)
    (hv : sec.info.isValid = true) : Stage4Inv (settleAppend sec x).1.1 := by
  obtain ⟨hlen, hpend, hsettle, hsteady, hvalid, hinvalid⟩ := h
  simp only [settleAppend]
  split
  · simp [Stage4Inv]
  · next hne =>
    rw [List.length_append, List.length_singleton] at hne
    refine ⟨?_, hpend, hsettle, fun hp => ?_, ?_, hinvalid⟩
    · rw [List.length_append, List.length_singleton]
      omega
    · rw [hphase] at hp
      cases hp
    · simpa [or_imp, forall_and] using ⟨hvalid, hv⟩

/-- The settle phase with a run of at most one valid section (R332 to R334). -/
theorem settle_restart_keeps_inv {st : Stage4} {run : List F2Section} (h : Stage4Inv st)
    (hphase : st.phase = .settle) (hlen : run.length ≤ 1) (hvalid : ∀ sec ∈ run, sec.info.isValid = true) :
    Stage4Inv { st with settle := run } := by
  obtain ⟨-, hpend, hsettle, -, -, hinvalid⟩ := h
  exact ⟨hlen.trans_lt (by decide), hpend, hsettle, by simp [hphase], hvalid, hinvalid⟩

/-- The settle phase keeps the invariant (R332 to R335). -/
theorem f2cSettle_keeps_inv (c : Params) (sec : F2Section) {x : S4} (h : Stage4Inv x.1)
    (hphase : x.1.phase = .settle) : Stage4Inv (f2cSettle c sec x).1.1 := by
  have dropped : Stage4Inv (settleDrop x).1 := settle_restart_keeps_inv h hphase (by simp) (by simp)
  unfold f2cSettle
  split
  · exact dropped
  · next hv =>
    rw [Bool.not_eq_false] at hv
    split
    · unfold settleMode2
      split
      · exact h
      · dsimp only
        split
        · exact settleAppend_keeps_inv h hphase hv
        · exact dropped
    · unfold settleTimed
      split
      · exact settleAppend_keeps_inv h hphase hv
      · split
        · exact settleAppend_keeps_inv h hphase hv
        · exact settle_restart_keeps_inv h hphase (by simp) (by simpa using hv)

/-! ### Steady phase -/

/-- A section sent on in the steady phase becomes the last one, and the pending ones stay or are gone (R339, R344). -/
theorem steady_emitted_keeps_inv {st : Stage4} {pending : List F2Section} (m : SectionMeta) (h : Stage4Inv st)
    (hphase : st.phase = .steady) (hsub : pending.Sublist st.pending) :
    Stage4Inv { st with last := some m, dist := 0, pending := pending } := by
  obtain ⟨hlen, hpend, -, hsteady, hvalid, hinvalid⟩ := h
  obtain ⟨-, hrun⟩ := hsteady hphase
  exact ⟨hlen, hsub.length_le.trans hpend, by simp [hphase], fun _ => ⟨rfl, hrun⟩, hvalid,
    fun sec hsec => hinvalid sec (hsub.subset hsec)⟩

/-- An invalid section waits with the pending ones, and the oldest goes once they are too many (R336). -/
theorem steadyInvalid_keeps_inv (c : Params) {sec : F2Section} {x : S4} (h : Stage4Inv x.1)
    (hphase : x.1.phase = .steady) (hv : sec.info.isValid = false) : Stage4Inv (steadyInvalid c sec x).1.1 := by
  obtain ⟨hlen, hpend, -, hsteady, hvalid, hinvalid⟩ := h
  have hall : ∀ p ∈ x.1.pending ++ [sec], p.info.isValid = false := by
    simpa [or_imp, forall_and] using ⟨hinvalid, hv⟩
  simp only [steadyInvalid]
  split
  · refine ⟨hlen, ?_, by simp [hphase], hsteady, hvalid, fun p hp => hall p (List.mem_of_mem_drop hp)⟩
    simpa using hpend
  · next hfits => exact ⟨hlen, not_lt.1 hfits, by simp [hphase], hsteady, hvalid, hall⟩

/-- A valid section of the steady phase: on time, early, or after a gap, filled or halted on (R339 to R344). -/
theorem steadyTimed_keeps_inv (c : Params) (w : BitVec 16) (l : SectionMeta) (e : Int) (sec : F2Section) {x : S4}
    (h : Stage4Inv x.1) (hphase : x.1.phase = .steady) : Stage4Inv (steadyTimed c w l e sec x).state.1 := by
  unfold steadyTimed
  split
  · exact steady_emitted_keeps_inv sec.info h hphase (List.nil_sublist _)
  split
  · exact h
  split
  · exact h
  dsimp only
  split
  · exact h
  · exact steady_emitted_keeps_inv sec.info h hphase (List.Sublist.refl _)

/-- Stage 4 keeps its invariant over a section (R330). -/
theorem stage4Take_keeps_inv (c : Params) (w : BitVec 16) (sec : F2Section) {x : S4} (h : Stage4Inv x.1) :
    Stage4Inv (stage4Take c w sec x).state.1 := by
  simp only [stage4Take]
  split
  · next hphase => exact f2cSettle_keeps_inv c sec h hphase
  · next hphase =>
    unfold f2cSteady
    split
    · next hv => exact steadyInvalid_keeps_inv c h hphase hv
    · split
      · exact h
      · exact steadyTimed_keeps_inv c w _ _ _ h hphase

/-! ### The flush, the halt -/

/-- Stage 4 in its reset state, which is also what a flush leaves (R348). -/
theorem stage4Inv_idle : Stage4Inv ⟨.settle, [], none, [], 0⟩ := by decide

/-- The halts of stage 4 are those of a gap, never that of Q-mode 3 (R342, R343). -/
theorem stage4Take_fatal {c : Params} {w : BitVec 16} {sec : F2Section} {x y : S4} {info : FatalInfo}
    (h : stage4Take c w sec x = .fatal y info) :
    info.cause = .uncorrectableGap ∨ info.cause = .gapTooLarge := by
  have timed : ∀ {l e sec x}, steadyTimed c w l e sec x = .fatal y info →
      info.cause = .uncorrectableGap ∨ info.cause = .gapTooLarge := by
    intro l e sec x h
    unfold steadyTimed at h
    split at h
    · cases h
    split at h
    · cases h
    split at h
    · cases h
      exact .inl rfl
    dsimp only at h
    split at h
    · cases h
      exact .inr rfl
    · cases h
  simp only [stage4Take, f2cSteady] at h
  split at h
  · cases h
  split at h
  · cases h
  split at h
  · cases h
  · exact timed h

end Sys2Proof.Machine
end

section
/-! Stage 5 keeps the lengths of its delay lines and the bounds of their counts (R390 to R394, R406). -/

namespace Sys2Proof.Machine

/-- A push keeps the lengths of a set's lines, and its count saturates (R392). -/
theorem dlNext_keeps_inv {n : Nat} {len : Fin n → Nat} {longest : Nat} {d : DelaySet n} (v : Vector Cell n)
    (h : DelaySetInv len longest d) : DelaySetInv len longest (dlNext len longest d v) := by
  obtain ⟨hlines, -⟩ := h
  refine ⟨fun p => dlNext_line_length len longest d v p (hlines p), ?_⟩
  rw [dlNext_count]
  omega

/-- A set at reset or after a flush (R72, R406). -/
theorem delaySetInv_fresh {n : Nat} (len : Fin n → Nat) (longest : Nat) :
    DelaySetInv len longest (DelaySet.fresh n len) :=
  ⟨fun p => by simp [DelaySet.fresh], Nat.zero_le _⟩

/-- Stage 5 after a flush, which is also its reset state (R406). -/
theorem stage5Inv_flush : Stage5Inv stage5Flush :=
  ⟨delaySetInv_fresh _ _, delaySetInv_fresh _ _, delaySetInv_fresh _ _⟩

/-- Steps 6 and 7 push into `DL2` only (R401 to R403). -/
theorem circTail_lines (c : Params) (c2 : Vector Cell 28) (x : S5) :
    (circTail c c2 x).2.1 =
      { x.1 with dl2 := dlNext dl2Len dl2Max x.1.dl2 (deinterleaveCells c (c2Data c2)) } := by
  simp only [circTail, lostFrame, apply_ite Prod.snd, apply_ite Prod.fst, ite_self]

/-- Steps 6 and 7 keep the delay lines. -/
theorem circTail_keeps_inv (c : Params) (c2 : Vector Cell 28) {x : S5} (h : Stage5Inv x.1) :
    Stage5Inv (circTail c c2 x).2.1 := by
  obtain ⟨h1, hM, h2⟩ := h
  rw [circTail_lines]
  exact ⟨h1, hM, dlNext_keeps_inv _ h2⟩

/-- Steps 4 and 5 push into `DLM`, and go on to the next steps when it is ready (R397 to R400). -/
theorem circMiddle_keeps_inv (c : Params) (c1 : Vector Cell 32) {x : S5} (h : Stage5Inv x.1) :
    Stage5Inv (circMiddle c c1 x).2.1 := by
  obtain ⟨h1, hM, h2⟩ := h
  have pushed : Stage5Inv { x.1 with dlM := dlNext dlMLen dlMMax x.1.dlM (c1Kept c1) } :=
    ⟨h1, dlNext_keeps_inv _ hM, h2⟩
  simp only [circMiddle]
  split
  · exact circTail_keeps_inv c _ pushed
  · exact pushed

/-- The cascade keeps the delay lines (R394). -/
theorem decodeFrame_keeps_inv (c : Params) (frame : F2Frame) {x : S5} (h : Stage5Inv x.1) :
    Stage5Inv (decodeFrame c frame x).2.1 := by
  obtain ⟨h1, hM, h2⟩ := h
  have pushed : Stage5Inv { x.1 with dl1 := dlNext dl1Len dl1Max x.1.dl1 (invertParity frame) } :=
    ⟨dlNext_keeps_inv _ h1, hM, h2⟩
  simp only [decodeFrame]
  split
  · exact circMiddle_keeps_inv c _ pushed
  · exact pushed

/-- Frames decoded in order keep the delay lines (R390). -/
theorem decodeFrames_keeps_inv (c : Params) (frames : List F2Frame) {x : S5} (h : Stage5Inv x.1) :
    Stage5Inv (decodeFrames c frames x).2.1 := by
  induction frames generalizing x with
  | nil => exact h
  | cons f more ih => exact ih (decodeFrame_keeps_inv c f h)

/-- A section on its way out keeps the delay lines (R331, R390). -/
theorem outSection_keeps_inv (c : Params) (sec : F2Section) {s : State} (h : Stage5Inv s.circ) :
    Stage5Inv (outSection c sec s).circ :=
  decodeFrames_keeps_inv c sec.frames (x := (s.circ, bump .f2cSectionsOut 1 s.cnt)) h

end Sys2Proof.Machine
end

section
/-! The invariants of the stages and of the fatal registers over every step, and the writers of the host's state. -/

namespace Sys2Proof.Machine

/-! ### The fatal registers (R33, R572, R575) -/

/-- The halt of Q-mode 3 leaves consistent registers (R479). -/
theorem fatalInv_of_mode3 {info : FatalInfo} (h : info = ⟨.unsupportedQMode3, 0, 0⟩) (s : State) :
    FatalInv (raiseFatal info s) := by
  subst h
  simp [FatalInv]

/-- The halts of a gap leave consistent registers (R342, R343). -/
theorem fatalInv_of_gap {info : FatalInfo} (h : info.cause = .uncorrectableGap ∨ info.cause = .gapTooLarge)
    (s : State) : FatalInv (raiseFatal info s) := by
  rcases h with h | h <;> simp [FatalInv, h]

/-! ### Right after reset -/

/-- The reset state holds no section (R85). -/
theorem sectionsWhole_reset : SectionsWhole State.reset :=
  ⟨List.forall_mem_nil _, List.forall_mem_nil _, List.forall_mem_nil _, List.forall_mem_nil _⟩

/-- Settles O56, stage by stage. -/
theorem invariantsHoldAtReset : Obligations.InvariantsHoldAtReset :=
  ⟨by decide, stage1Inv_idle, stage3Inv_idle, stage4Inv_idle, stage5Inv_flush, sectionsWhole_reset⟩

/-! ### Over a step -/

/-- Each invariant that held of the state `s₀` still holds of `s`: of the fatal registers and of stages 1, 3, 4
and 5. -/
def InvariantsKept (s₀ s : State) : Prop :=
  (FatalInv s₀ → FatalInv s) ∧ (Stage1Inv s₀.tv → Stage1Inv s.tv) ∧ (Stage3Inv s₀.f3 → Stage3Inv s.f3) ∧
    (Stage4Inv s₀.f2c → Stage4Inv s.f2c) ∧ (Stage5Inv s₀.circ → Stage5Inv s.circ)

/-- Each stage of the pipeline keeps its own invariant and touches no other's state; the halts keep the fatal
registers consistent. -/
theorem pipelineKeeps_invariantsKept (c : Params) (s₀ : State) :
    PipelineKeeps c (InvariantsKept s₀) (fun _ => True) where
  counters _ _ h := h
  symbols _ _ h := h
  token := fun t s ⟨hf, h1, h3, h4, h5⟩ => ⟨hf, fun h => stage1Take_keeps_inv t s.cnt (h1 h), h3, h4, h5⟩
  flush1 := fun s ⟨hf, _, h3, h4, h5⟩ => ⟨hf, fun _ => stage1Flush_st s.tv s.cnt ▸ stage1Inv_idle, h3, h4, h5⟩
  frame := fun f _ _ _ ⟨hf, h1, h3, h4, h5⟩ he =>
    ⟨⟨hf, h1, fun h => Flow.state_of_ok he ▸ stage3Take_keeps_inv c f (h3 h), h4, h5⟩, fun _ _ => trivial⟩
  frameHalt := fun f _ _ _ ⟨_, h1, h3, h4, h5⟩ he =>
    ⟨fun _ => fatalInv_of_mode3 (stage3Take_fatal he) _, h1,
      fun h => Flow.state_of_fatal he ▸ stage3Take_keeps_inv c f (h3 h), h4, h5⟩
  flush3 := fun _ _ _ ⟨hf, h1, h3, h4, h5⟩ he =>
    ⟨⟨hf, h1, fun h => Flow.state_of_ok he ▸ stage3Flush_keeps_inv c (h3 h), h4, h5⟩, fun _ _ => trivial⟩
  flush3Halt := fun _ _ _ ⟨_, h1, h3, h4, h5⟩ he =>
    ⟨fun _ => fatalInv_of_mode3 (stage3Flush_fatal he) _, h1,
      fun h => Flow.state_of_fatal he ▸ stage3Flush_keeps_inv c (h3 h), h4, h5⟩
  record := fun sec _ _ _ ⟨hf, h1, h3, h4, h5⟩ _ he =>
    ⟨⟨hf, h1, h3, fun h => Flow.state_of_ok he ▸ stage4Take_keeps_inv c _ sec (h4 h), h5⟩, fun _ _ => trivial⟩
  recordHalt := fun sec _ _ _ ⟨_, h1, h3, h4, h5⟩ _ he =>
    ⟨fun _ => fatalInv_of_gap (stage4Take_fatal he) _, h1, h3,
      fun h => Flow.state_of_fatal he ▸ stage4Take_keeps_inv c _ sec (h4 h), h5⟩
  flush4 := fun _ ⟨hf, h1, h3, _, h5⟩ => ⟨⟨hf, h1, h3, fun _ => stage4Inv_idle, h5⟩, fun _ _ => trivial⟩
  out := fun sec _ ⟨hf, h1, h3, h4, h5⟩ _ => ⟨hf, h1, h3, h4, fun h => outSection_keeps_inv c sec (h5 h)⟩
  flush5 := fun _ ⟨hf, h1, h3, h4, _⟩ => ⟨hf, h1, h3, h4, fun _ => stage5Inv_flush⟩

/-- RESET establishes the invariants (R535). -/
theorem resetMachine_invariantsKept (s₀ s : State) : InvariantsKept s₀ (resetMachine s) := by
  obtain ⟨hf, h1, h3, h4, h5, -⟩ := invariantsHoldAtReset
  exact ⟨fun _ => hf, fun _ => h1, fun _ => h3, fun _ => h4, fun _ => h5⟩

/-- A step keeps each invariant, whether or not the others hold. -/
theorem step_invariantsKept {s s' : State} (h : step s = .next s') : InvariantsKept s s' :=
  step_keeps (P := InvariantsKept s)
    (fun _ _ _ => exec_keeps (pipelineKeeps_invariantsKept _ s) (fun _ t _ => resetMachine_invariantsKept s t)
      (fun _ _ _ ht => ht) (fun _ _ _ ht => ht) (fun _ _ _ _ ht _ => ht) (fun _ _ _ _ ht _ => ht))
    (fun _ _ ht => ht) h ⟨id, id, id, id, id⟩

/-- Settles O26: between two rules the stage loop keeps `Stage1Running`, and it waits with the invariant. -/
theorem stepKeepsStageOneInvariant : Obligations.StepKeepsStageOneInvariant := fun _ _ hinv h =>
  have ⟨_, h1, _, _, _⟩ := step_invariantsKept h
  h1 hinv

/-- Settles O35: every branch of the dispatch ends with a short accumulation and fewer than three bad boundaries. -/
theorem stepKeepsStageThreeInvariant : Obligations.StepKeepsStageThreeInvariant := fun _ _ hinv h =>
  have ⟨_, _, h3, _, _⟩ := step_invariantsKept h
  h3 hinv

/-- Settles O47, phase by phase. -/
theorem stepKeepsStageFourInvariant : Obligations.StepKeepsStageFourInvariant := fun _ _ hinv h =>
  have ⟨_, _, _, h4, _⟩ := step_invariantsKept h
  h4 hinv

/-- Settles O53: a push keeps the length of every line. -/
theorem stepKeepsDelayLineLengths : Obligations.StepKeepsDelayLineLengths := fun _ _ hinv h =>
  have ⟨_, _, _, _, h5⟩ := step_invariantsKept h
  h5 hinv

/-- Settles O55: stage 3 halts for Q-mode 3 with both times 0, and stage 4 for a gap. -/
theorem stepKeepsFatalRegistersConsistent : Obligations.StepKeepsFatalRegistersConsistent := fun _ _ hinv h =>
  have ⟨hf, _, _, _, _⟩ := step_invariantsKept h
  hf hinv

/-! ### The host's state and its writers (R34, R533, R535) -/

/-- The pipeline writes neither the waiting actions nor the watermark nor the reply. -/
theorem pipelineKeeps_hostState (c : Params) (Q : List PortItem → BitVec 16 → Reply → Prop) :
    PipelineKeeps c (fun s => Q s.hostIn s.watermark s.reply) (fun _ => True) where
  counters _ _ h := h
  symbols _ _ h := h
  token _ _ h := h
  flush1 _ h := h
  frame _ _ _ _ h _ := ⟨h, fun _ _ => trivial⟩
  frameHalt _ _ _ _ h _ := h
  flush3 _ _ _ h _ := ⟨h, fun _ _ => trivial⟩
  flush3Halt _ _ _ h _ := h
  record _ _ _ _ h _ _ := ⟨h, fun _ _ => trivial⟩
  recordHalt _ _ _ _ h _ _ := h
  flush4 _ h := ⟨h, fun _ _ => trivial⟩
  out _ _ h _ := h
  flush5 _ h := h

/-- No instruction takes the actions that wait (entry 1). -/
theorem exec_hostIn {i : Instr} {s s' : State} (h : exec i s = .next s') : s'.hostIn = s.hostIn :=
  exec_keeps (P := fun t => t.hostIn = s.hostIn) (pipelineKeeps_hostState _ fun hostIn _ _ => hostIn = s.hostIn)
    (fun _ _ ht => ht) (fun _ _ _ ht => ht) (fun _ _ _ ht => ht) (fun _ _ _ _ ht _ => ht) (fun _ _ _ _ ht _ => ht)
    h rfl

/-- The watermark is written by CONFIG and RESET only (R34, R533). -/
theorem exec_watermark {i : Instr} {s s' : State} (hreset : isReset i = false) (hi : ∀ v, i ≠ .regWrite 0x008#12 v)
    (h : exec i s = .next s') : s'.watermark = s.watermark :=
  exec_keeps (P := fun t => t.watermark = s.watermark)
    (pipelineKeeps_hostState _ fun _ watermark _ => watermark = s.watermark)
    (fun hr => absurd hr (by simp [hreset])) (fun ⟨v, hv⟩ => absurd hv (hi v)) (fun _ _ _ ht => ht)
    (fun _ _ _ _ ht _ => ht) (fun _ _ _ _ ht _ => ht) h rfl

/-- The reply is written by reads, pops and RESET only (entry 6). -/
theorem exec_reply {i : Instr} {s s' : State} (hreset : isReset i = false) (hread : ∀ addr, i ≠ .regRead addr)
    (hpop : isPop i = false) (h : exec i s = .next s') : s'.reply = s.reply :=
  exec_keeps (P := fun t => t.reply = s.reply) (pipelineKeeps_hostState _ fun _ _ reply => reply = s.reply)
    (fun hr => absurd hr (by simp [hreset])) (fun _ _ _ ht => ht)
    (fun hr => absurd hr (by simp [hread, hpop])) (fun _ _ _ _ ht _ => ht) (fun _ _ _ _ ht _ => ht) h rfl

/-- Settles O60: the pipeline writes none of the three, so the named instructions are the only writers left. -/
theorem hostStateHasItsWriters : Obligations.HostStateHasItsWriters :=
  ⟨fun _ _ _ hreset h =>
      ⟨exec_hostIn h, fun hi => exec_watermark hreset hi h, fun hread hpop => exec_reply hreset hread hpop h⟩,
    fun _ _ s => ⟨resetMachine s, rfl, rfl, rfl, rfl⟩⟩

end Sys2Proof.Machine
end

section
/-! The output queues grow in pairs, refused register accesses, and records that determine their sections (R102, R109,
R114, R165). -/

namespace Sys2Proof.Machine

/-! ### The output queues (R114, R331, R405, R450) -/

/-- The output queues `f2` and `d24` extend `f2₀` and `d24₀` by lists with the same metadata in the same order. -/
def QueuesGrown (f2₀ f2 : List F2Section) (d24₀ d24 : List F1Section) : Prop :=
  ∃ (fs : List F2Section) (ds : List F1Section), f2 = f2₀ ++ fs ∧ d24 = d24₀ ++ ds ∧
    ds.map (fun d => d.info) = fs.map (fun f => f.info)

theorem QueuesGrown.refl (f2 : List F2Section) (d24 : List F1Section) : QueuesGrown f2 f2 d24 d24 :=
  ⟨[], [], (List.append_nil f2).symm, (List.append_nil d24).symm, rfl⟩

/-- One more section on both queues, with the same metadata. -/
theorem QueuesGrown.push {f2₀ f2 : List F2Section} {d24₀ d24 : List F1Section} {f : F2Section} {d : F1Section}
    (h : QueuesGrown f2₀ f2 d24₀ d24) (hinfo : d.info = f.info) :
    QueuesGrown f2₀ (f2 ++ [f]) d24₀ (d24 ++ [d]) := by
  obtain ⟨fs, ds, rfl, rfl, hmeta⟩ := h
  exact ⟨fs ++ [f], ds ++ [d], List.append_assoc .., List.append_assoc .., by simp [hmeta, hinfo]⟩

/-- A section on its way out extends both queues (R331, R405, R450). -/
theorem outSection_queuesGrown {f2₀ : List F2Section} {d24₀ : List F1Section} (c : Params) (sec : F2Section) {s : State}
    (h : QueuesGrown f2₀ s.f2Out d24₀ s.d24Out) :
    QueuesGrown f2₀ (outSection c sec s).f2Out d24₀ (outSection c sec s).d24Out := by
  obtain ⟨d, circ, cnt, hinfo, he⟩ := outSection_spec c sec s
  rw [he]
  exact h.push hinfo

/-- Only `out(S)` writes the output queues; a halt keeps what is in them (R575). -/
theorem pipelineKeeps_queuesGrown (c : Params) (f2₀ : List F2Section) (d24₀ : List F1Section) :
    PipelineKeeps c (fun s => QueuesGrown f2₀ s.f2Out d24₀ s.d24Out) (fun _ => True) where
  counters _ _ h := h
  symbols _ _ h := h
  token _ _ h := h
  flush1 _ h := h
  frame _ _ _ _ h _ := ⟨h, fun _ _ => trivial⟩
  frameHalt _ _ _ _ h _ := h
  flush3 _ _ _ h _ := ⟨h, fun _ _ => trivial⟩
  flush3Halt _ _ _ h _ := h
  record _ _ _ _ h _ _ := ⟨h, fun _ _ => trivial⟩
  recordHalt _ _ _ _ h _ _ := h
  flush4 _ h := ⟨h, fun _ _ => trivial⟩
  out sec _ h _ := outSection_queuesGrown c sec h
  flush5 _ h := h

/-- Settles O59: the pipeline writes the queues by `out(S)` alone, and the other writers are the pops and RESET. -/
theorem outputQueuesGrowInPairs : Obligations.OutputQueuesGrowInPairs := fun i s s' hreset hpop h =>
  have notPop : ¬ isPop i = true := by simp [hpop]
  exec_keeps (P := fun t => QueuesGrown s.f2Out t.f2Out s.d24Out t.d24Out)
    (pipelineKeeps_queuesGrown _ s.f2Out s.d24Out)
    (fun hr => absurd hr (by simp [hreset])) (fun _ _ _ ht => ht) (fun _ _ _ ht => ht)
    (fun hp => absurd hp notPop) (fun hp => absurd hp notPop) h (QueuesGrown.refl _ _)

/-! ### Records determine their sections (R109, R165) -/

@[simp] theorem beBytes_length (n v : Nat) : (beBytes n v).length = n := by simp [beBytes]

/-- The last byte of a field is its value's lowest one. -/
theorem beBytes_succ (n v : Nat) : beBytes (n + 1) v = beBytes n (v / 256) ++ [BitVec.ofNat 8 v] := by
  have hshift : ∀ k ∈ List.range n,
      BitVec.ofNat 8 (v / 256 ^ (n - k)) = BitVec.ofNat 8 (v / 256 / 256 ^ (n - 1 - k)) := by
    intro k hk
    have hk := List.mem_range.1 hk
    rw [Nat.div_div_eq_div_mul, ← Nat.pow_succ', show n - k = (n - 1 - k).succ by omega]
  simp [beBytes, List.range_succ, List.map_congr_left hshift]

/-- A field wide enough for its value determines it. -/
theorem beBytes_inj {n v w : Nat} (hv : v < 256 ^ n) (hw : w < 256 ^ n) (h : beBytes n v = beBytes n w) : v = w := by
  induction n generalizing v w with
  | zero => omega
  | succ n ih =>
    rw [beBytes_succ, beBytes_succ] at h
    obtain ⟨hhigh, hlow⟩ := List.append_inj' h rfl
    have hdiv : v / 256 = w / 256 := by
      refine ih ?_ ?_ hhigh
      · rw [Nat.pow_succ] at hv; omega
      · rw [Nat.pow_succ] at hw; omega
    have hmod : v % 256 = w % 256 := by simpa [← BitVec.toNat_inj] using hlow
    omega

/-- A field of `n` bytes that holds a word, followed by more, determines the word and what follows. -/
theorem beBytes_append_inj {n m : Nat} {v w : BitVec m} {x y : List Byte} (hm : m ≤ 8 * n) :
    beBytes n v.toNat ++ x = beBytes n w.toNat ++ y ↔ v = w ∧ x = y := by
  have fits (u : BitVec m) : u.toNat < 256 ^ n := by
    calc u.toNat < 2 ^ m := u.isLt
      _ ≤ 2 ^ (8 * n) := Nat.pow_le_pow_right (by omega) hm
      _ = 256 ^ n := Nat.pow_mul 2 8 n
  constructor
  · intro h
    obtain ⟨hfield, hmore⟩ := List.append_inj h (by simp)
    exact ⟨BitVec.eq_of_toNat_eq (beBytes_inj (fits v) (fits w) hfield), hmore⟩
  · rintro ⟨rfl, rfl⟩
    rfl

@[simp] theorem boolByte_inj {a b : Bool} : boolByte a = boolByte b ↔ a = b := by
  revert a b
  decide

@[simp] theorem sectionTypeCode_inj {a b : SectionType} : sectionTypeCode a = sectionTypeCode b ↔ a = b := by
  cases a <;> cases b <;> decide

@[simp] theorem qModeCode_inj {a b : QMode} : qModeCode a = qModeCode b ↔ a = b := by
  cases a <;> cases b <;> decide

@[simp] theorem metaBytes_length (m : SectionMeta) : (metaBytes m).length = 26 := by simp [metaBytes]

/-- Every metadata field has its own bytes (R165). -/
theorem metaBytes_inj {a b : SectionMeta} (h : metaBytes a = metaBytes b) : a = b := by
  cases a
  cases b
  simp only [metaBytes, List.append_assoc, List.cons_append, List.nil_append, List.cons.injEq,
    beBytes_append_inj (show 32 ≤ 8 * 4 by omega), beBytes_append_inj (show 52 ≤ 8 * 8 by omega),
    boolByte_inj, sectionTypeCode_inj, qModeCode_inj] at h
  simp only [h]

@[simp] theorem frameBytes_length {n : Nat} (x : Vector Cell n) : (frameBytes x).length = 3 * n := by
  simp only [frameBytes, List.length_append, List.length_map, Vector.length_toList]
  omega

/-- A cell is its byte and its two flags. -/
theorem cell_ext {a b : Cell} (hdata : a.data = b.data) (herror : a.error = b.error) (hpadded : a.padded = b.padded) :
    a = b := by
  cases a
  cases b
  exact (Cell.mk.injEq ..).mpr ⟨hdata, herror, hpadded⟩

/-- The three planes of a frame determine its cells (R165). -/
theorem frameBytes_inj {n : Nat} {x y : Vector Cell n} (h : frameBytes x = frameBytes y) : x = y := by
  obtain ⟨hplanes, hpadded⟩ := List.append_inj h (by simp)
  obtain ⟨hdata, herror⟩ := List.append_inj hplanes (by simp)
  apply Vector.ext
  intro i hi
  have atCell {β : Type} (f : Cell → β) (hf : x.toList.map f = y.toList.map f) : f x[i] = f y[i] := by
    simpa [hi] using congrArg (·[i]?) hf
  exact cell_ext (atCell _ hdata) (boolByte_inj.1 (atCell _ herror)) (boolByte_inj.1 (atCell _ hpadded))

/-- Equally many frames with the same bytes are the same frames. -/
theorem flatMap_frameBytes_inj {n : Nat} {xs ys : List (Vector Cell n)} (hlen : xs.length = ys.length)
    (h : xs.flatMap frameBytes = ys.flatMap frameBytes) : xs = ys := by
  induction xs generalizing ys with
  | nil => exact (List.length_eq_zero_iff.1 hlen.symm).symm
  | cons x xs ih =>
    cases ys with
    | nil => cases hlen
    | cons y ys =>
      rw [List.flatMap_cons, List.flatMap_cons] at h
      obtain ⟨hfirst, hmore⟩ := List.append_inj h (by simp)
      rw [frameBytes_inj hfirst, ih (Nat.succ.inj hlen) hmore]

/-- A record determines its metadata and its frames, if their number is known. -/
theorem recordBytes_inj {n : Nat} {tag : Byte} {xs ys : List (Vector Cell n)} {a b : SectionMeta}
    (hlen : xs.length = ys.length) (h : recordBytes tag xs a = recordBytes tag ys b) : xs = ys ∧ a = b := by
  obtain ⟨hheader, hframes⟩ := List.append_inj h (by simp)
  obtain ⟨-, hmeta⟩ := List.append_inj hheader (by simp)
  exact ⟨flatMap_frameBytes_inj hlen hframes, metaBytes_inj hmeta⟩

/-- Settles O13, part by part of a record. -/
theorem recordsDetermineTheirSections : Obligations.RecordsDetermineTheirSections := by
  refine ⟨?f2, ?d24⟩
  case f2 =>
    rintro ⟨xs, a⟩ ⟨ys, b⟩ hxs hys h
    obtain ⟨rfl, rfl⟩ := recordBytes_inj (hxs.trans hys.symm) h
    rfl
  case d24 =>
    rintro ⟨xs, a⟩ ⟨ys, b⟩ hxs hys h
    obtain ⟨rfl, rfl⟩ := recordBytes_inj (hxs.trans hys.symm) h
    rfl

/-! ### Register accesses that are not admitted (R102) -/

theorem aligned_eq_true {addr : Addr} : aligned addr = true ↔ addr.toNat % 4 = 0 := by simp [aligned]

/-- An aligned read is run (R532). -/
theorem exec_regRead_of_aligned {addr : Addr} (h : addr.toNat % 4 = 0) (s : State) :
    exec (.regRead addr) s = .next { s with reply := .word (readRegister addr s) } :=
  if_pos (aligned_eq_true.2 h)

/-- An aligned write is run (R533). -/
theorem exec_regWrite_of_aligned {addr : Addr} (h : addr.toNat % 4 = 0) (v : Word) (s : State) :
    exec (.regWrite addr v) s = .next (writeRegister Config.machine addr v s) :=
  if_pos (aligned_eq_true.2 h)

theorem exec_regRead_of_unaligned {addr : Addr} (h : addr.toNat % 4 ≠ 0) (s : State) :
    exec (.regRead addr) s = .refused (.unalignedAccess addr) :=
  if_neg fun ha => h (aligned_eq_true.1 ha)

theorem exec_regWrite_of_unaligned {addr : Addr} (h : addr.toNat % 4 ≠ 0) (v : Word) (s : State) :
    exec (.regWrite addr v) s = .refused (.unalignedAccess addr) :=
  if_neg fun ha => h (aligned_eq_true.1 ha)

/-- Every row that an aligned write decodes to completes: PUSH_TV, RESET, FLUSH and REG_WRITE. -/
theorem exec_writeInstr_completes {addr : Addr} (h : addr.toNat % 4 = 0) (v : Word) (s : State) :
    ∃ s' : State, exec (writeInstr addr v) s = .next s' := by
  unfold writeInstr
  split
  · exact ⟨_, rfl⟩
  split
  · split
    · exact ⟨_, rfl⟩
    split
    · exact ⟨_, rfl⟩
    · exact ⟨_, exec_regWrite_of_aligned h v s⟩
  · exact ⟨_, exec_regWrite_of_aligned h v s⟩

/-- The item is an access to the register at `addr`, `width` bytes wide. -/
def IsAccess (width : Nat) (addr : Addr) (item : PortItem) : Prop :=
  (∃ v, item = .memWrite width addr v) ∨ item = .memRead width addr

/-- An access that is not admitted is rejected by the decoder, whatever waits after it. -/
theorem decode_of_accessError {width : Nat} {addr : Addr} {e : DecodeError} {item : PortItem} (more : List PortItem)
    (hitem : IsAccess width addr item) (he : accessError width addr = some e) :
    decode (item :: more) = .error e := by
  rcases hitem with ⟨v, rfl⟩ | rfl
  · simp only [decode, decodeWith, he]
  · simp only [decode, decodeWith, he]

/-- An access that is not admitted is refused by a step. -/
theorem step_of_accessError {s : State} {width : Nat} {addr : Addr} {e : DecodeError} {r : Refusal} {item : PortItem}
    {more : List PortItem} (hs : s.hostIn = item :: more) (hitem : IsAccess width addr item)
    (he : accessError width addr = some e) (hr : rejected e = .refusal r) : step s = .refused r := by
  have hdec : decode s.hostIn = .error e := hs ▸ decode_of_accessError more hitem he
  simp only [step, fetchAction_of_decode_error hdec, hr]

/-- An admitted access is run by a step. -/
theorem step_of_admitted {s : State} {addr : Addr} {item : PortItem} {more : List PortItem}
    (hs : s.hostIn = item :: more) (hitem : IsAccess 4 addr item) (h : addr.toNat % 4 = 0) :
    ∃ s' : State, step s = .next s' := by
  rcases hitem with ⟨v, rfl⟩ | rfl
  · rw [step_of_decode_ok (hs ▸ decode_memWrite h v more)]
    exact exec_writeInstr_completes h v _
  · rw [step_of_decode_ok (hs ▸ decode_memRead h more)]
    exact ⟨_, exec_regRead_of_aligned h _⟩

/-- Settles O6: at the ports by what the decoder answers, and in the two instructions by the alignment check. -/
theorem inadmissibleAccessIsRefused : Obligations.InadmissibleAccessIsRefused := by
  refine ⟨?ports, fun addr v s h => ⟨exec_regRead_of_unaligned h s, exec_regWrite_of_unaligned h v s⟩⟩
  intro s width addr v more haccess
  obtain ⟨item, hs, hitem⟩ : ∃ item, s.hostIn = item :: more ∧ IsAccess width addr item := by
    rcases haccess with hs | hs
    · exact ⟨_, hs, .inl ⟨v, rfl⟩⟩
    · exact ⟨_, hs, .inr rfl⟩
  split
  · next hwidth => exact step_of_accessError hs hitem (if_pos hwidth) rfl
  split
  · next hwidth haddr => exact step_of_accessError hs hitem ((if_neg hwidth).trans (if_pos haddr)) rfl
  · next hwidth haddr =>
    obtain rfl := not_not.1 hwidth
    exact step_of_admitted hs hitem (not_not.1 haddr)

end Sys2Proof.Machine
end

section
/-! Every section the machine holds keeps its 98 frames, from the boundary that finishes it to the output queues (R141
to R143, R284 to R297, R330 to R348, R390, R450). -/

namespace Sys2Proof.Machine

/-- The sections have 98 frames each (R141). -/
def AllWhole (secs : List F2Section) : Prop := ∀ sec ∈ secs, sec.frames.length = 98

theorem allWhole_nil : AllWhole [] := List.forall_mem_nil _

theorem allWhole_singleton {sec : F2Section} : AllWhole [sec] ↔ sec.frames.length = 98 := List.forall_mem_singleton

theorem allWhole_append {a b : List F2Section} : AllWhole (a ++ b) ↔ AllWhole a ∧ AllWhole b := List.forall_mem_append

/-- The units a flow hands on; none if it raised the fatal halt (R575). -/
def Flow.units {σ α : Type} : Flow σ (List α) → List α
  | .ok _ out => out
  | .fatal _ _ => []

theorem Flow.units_of_ok {σ α : Type} {r : Flow σ (List α)} {st : σ} {out : List α} (h : r = .ok st out) :
    r.units = out := by
  rw [h, Flow.units]

/-! ### Stage 3 (R284 to R297) -/

/-- Sections finished from pieces of 98 frames have 98 frames. -/
theorem finishThen_whole (c : Params) {pieces : List (List F3Frame)} (rest : S3 → S3) (x : S3)
    (h : ∀ fs ∈ pieces, fs.length = 98) : AllWhole (finishThen c pieces rest x).units := by
  rcases finishThen_spec c pieces rest x with ⟨cnt, secs, he, hframes⟩ | ⟨lastAbs, cnt, he⟩
  · rw [Flow.units_of_ok he]
    intro sec hsec
    have hmem : sec.frames ∈ pieces.map fun fs => fs.map fun f => f.cells := hframes ▸ List.mem_map_of_mem hsec
    obtain ⟨fs, hfs, hcells⟩ := List.mem_map.1 hmem
    rw [← hcells, List.length_map]
    exact h fs hfs
  · rw [he]
    exact allWhole_nil

/-- What a bad boundary counts changes no section. -/
theorem flowThen_units (rest : S3 → S3) (r : Flow S3 (List F2Section)) : (flowThen rest r).units = r.units := by
  cases r <;> rfl

/-- A section short of at most four frames is padded to 98 (R287). -/
theorem padSection_length {a : List F3Frame} (hlo : 94 ≤ a.length) (hhi : a.length ≤ 98) :
    (padSection a).length = 98 := by
  simp only [padSection, f3PadOffset, f3SectionFrames, List.length_append, List.length_take, interleavePads_length,
    List.length_drop]
  omega

/-- The pieces of a split have 98 frames (R289). -/
theorem length_of_mem_splitSections {a fs : List F3Frame} (h : fs ∈ splitSections a) : fs.length = 98 := by
  obtain ⟨r, hr, rfl⟩ := List.mem_map.1 h
  have hr := List.mem_range.1 hr
  rw [List.length_take, List.length_drop]
  omega

/-- Every branch of the dispatch finishes pieces of 98 frames (R284 to R290). -/
theorem f3Dispatch_whole (c : Params) (a b : List F3Frame) (x : S3) : AllWhole (f3Dispatch c a b x).units := by
  unfold f3Dispatch
  dsimp only [f3SectionFrames, f3MaxShortfall]
  split
  · next hexact => exact finishThen_whole c _ x (List.forall_mem_singleton.2 hexact)
  split
  · split
    · exact allWhole_nil
    · rw [flowThen_units]
      exact finishThen_whole c _ x (List.forall_mem_singleton.2 (padSection_length (by omega) (by omega)))
  split
  · rw [flowThen_units]
    exact finishThen_whole c _ x fun _ => length_of_mem_splitSections
  · rw [flowThen_units]
    refine finishThen_whole c _ _ (List.forall_mem_singleton.2 ?_)
    rw [List.length_drop]
    omega

/-- A frame makes stage 3 emit whole sections only (R280). -/
theorem stage3Take_whole (c : Params) (f : F3Frame) (x : S3) : AllWhole (stage3Take c f x).units := by
  simp only [stage3Take, f3ExpectSync]
  split
  · exact allWhole_nil
  · split
    · exact f3Dispatch_whole c _ _ _
    · exact allWhole_nil

/-- A flush emits the accumulation only if it is a whole section (R297). -/
theorem stage3Flush_whole (c : Params) (x : S3) : AllWhole (stage3Flush c x).units := by
  unfold stage3Flush
  split
  · next hflush => exact finishThen_whole c _ x (List.forall_mem_singleton.2 hflush.2)
  · exact allWhole_nil

/-! ### Stage 4 (R330 to R348) -/

/-- The sections stage 4 holds have 98 frames each. -/
def Stage4Whole (st : Stage4) : Prop := AllWhole st.settle ∧ AllWhole st.pending

/-- What a rule of stage 4 leaves: whole sections in its buffers and whole sections emitted. -/
def RuleWhole (r : S4 × List F2Section) : Prop := Stage4Whole r.1.1 ∧ AllWhole r.2

theorem settleAppend_whole {sec : F2Section} {x : S4} (h : Stage4Whole x.1) (hsec : sec.frames.length = 98) :
    RuleWhole (settleAppend sec x) := by
  obtain ⟨hsettle, hpending⟩ := h
  have hrun : AllWhole (x.1.settle ++ [sec]) := allWhole_append.2 ⟨hsettle, allWhole_singleton.2 hsec⟩
  simp only [settleAppend]
  split
  · exact ⟨⟨allWhole_nil, allWhole_nil⟩, hrun⟩
  · exact ⟨⟨hrun, hpending⟩, allWhole_nil⟩

theorem settleDrop_whole {x : S4} (h : Stage4Whole x.1) : RuleWhole (settleDrop x, []) :=
  ⟨⟨allWhole_nil, h.2⟩, allWhole_nil⟩

/-- The settle phase (R332 to R335). -/
theorem f2cSettle_whole (c : Params) {sec : F2Section} {x : S4} (h : Stage4Whole x.1) (hsec : sec.frames.length = 98) :
    RuleWhole (f2cSettle c sec x) := by
  unfold f2cSettle
  split
  · exact settleDrop_whole h
  split
  · unfold settleMode2
    split
    · exact ⟨h, allWhole_nil⟩
    · dsimp only
      split
      · exact settleAppend_whole h hsec
      · exact settleDrop_whole h
  · unfold settleTimed
    split
    · exact settleAppend_whole h hsec
    · split
      · exact settleAppend_whole h hsec
      · exact ⟨⟨allWhole_singleton.2 hsec, h.2⟩, allWhole_nil⟩

/-- An invalid section waits with the pending ones (R336). -/
theorem steadyInvalid_whole (c : Params) {sec : F2Section} {x : S4} (h : Stage4Whole x.1)
    (hsec : sec.frames.length = 98) : RuleWhole (steadyInvalid c sec x) := by
  obtain ⟨hsettle, hpending⟩ := h
  have hall : AllWhole (x.1.pending ++ [sec]) := allWhole_append.2 ⟨hpending, allWhole_singleton.2 hsec⟩
  simp only [steadyInvalid]
  split
  · exact ⟨⟨hsettle, fun p hp => hall p (List.mem_of_mem_drop hp)⟩, fun p hp => hall p (List.mem_of_mem_take hp)⟩
  · exact ⟨⟨hsettle, hall⟩, allWhole_nil⟩

/-- Interpolation rewrites the metadata and keeps the frames (R339). -/
theorem interpolateFrom_whole (c : Params) (l : SectionMeta) (idx : Int) {pending : List F2Section}
    (h : AllWhole pending) : AllWhole (interpolateFrom c l idx pending) := by
  induction pending generalizing idx with
  | nil => exact allWhole_nil
  | cons p more ih =>
    obtain ⟨hp, hmore⟩ := List.forall_mem_cons.1 h
    exact List.forall_mem_cons.2 ⟨hp, ih (idx + 1) hmore⟩

/-- The sections that fill a gap are whole (R345, R346). -/
theorem steadyGap_whole (c : Params) (w : BitVec 16) (l : SectionMeta) (e : Int) (g : Nat) {sec : F2Section} {x : S4}
    (h : Stage4Whole x.1) (hsec : sec.frames.length = 98) : RuleWhole (steadyGap c w l e g sec x) := by
  refine ⟨h, allWhole_append.2 ⟨?_, allWhole_singleton.2 hsec⟩⟩
  intro z hz
  obtain ⟨r, -, rfl⟩ := List.mem_map.1 hz
  rw [synthetic_frames, List.length_replicate]

/-- What a flow of stage 4 leaves and hands on: whole sections. -/
def FlowWhole (r : Flow S4 (List F2Section)) : Prop := Stage4Whole r.state.1 ∧ AllWhole r.units

/-- A valid section of the steady phase (R339 to R344). -/
theorem steadyTimed_whole (c : Params) (w : BitVec 16) (l : SectionMeta) (e : Int) {sec : F2Section} {x : S4}
    (h : Stage4Whole x.1) (hsec : sec.frames.length = 98) : FlowWhole (steadyTimed c w l e sec x) := by
  unfold steadyTimed
  split
  · exact ⟨⟨h.1, allWhole_nil⟩,
      allWhole_append.2 ⟨interpolateFrom_whole c l _ h.2, allWhole_singleton.2 hsec⟩⟩
  split
  · exact ⟨h, allWhole_nil⟩
  split
  · exact ⟨h, allWhole_nil⟩
  dsimp only
  split
  · exact ⟨h, allWhole_nil⟩
  · exact steadyGap_whole c w l e _ h hsec

/-- The Q-mode 2 correction changes the time and keeps the frames (R338). -/
theorem correctMode2_frames (c : Params) (e : Int) (sec : F2Section) : (correctMode2 c e sec).frames = sec.frames := by
  unfold correctMode2
  split <;> rfl

/-- Stage 4 keeps and emits whole sections (R330). -/
theorem stage4Take_whole (c : Params) (w : BitVec 16) {sec : F2Section} {x : S4} (h : Stage4Whole x.1)
    (hsec : sec.frames.length = 98) : FlowWhole (stage4Take c w sec x) := by
  simp only [stage4Take]
  split
  · exact f2cSettle_whole c h hsec
  · unfold f2cSteady
    split
    · exact steadyInvalid_whole c h hsec
    · split
      · exact ⟨h, allWhole_nil⟩
      · exact steadyTimed_whole c w _ _ h ((congrArg List.length (correctMode2_frames ..)).trans hsec)

/-! ### Stages 5 and 6 (R390, R450) -/

/-- The Data24 section of an F2 section has one frame for each of its frames. -/
theorem stage6Take_stage5Take_length (c : Params) (sec : F2Section) (x : S5) (cnt : Counters) :
    (stage6Take (stage5Take c sec x).1 cnt).1.frames.length = sec.frames.length :=
  (List.length_map ..).trans (decodeFrames_length c sec.frames x)

/-- A whole section on its way out extends both queues by a whole section (R331). -/
theorem outSection_whole (c : Params) {sec : F2Section} {s : State} (h : SectionsWhole s)
    (hsec : sec.frames.length = 98) : SectionsWhole (outSection c sec s) := by
  obtain ⟨hf2, hd24, hsettle, hpending⟩ := h
  refine ⟨allWhole_append.2 ⟨hf2, allWhole_singleton.2 hsec⟩, List.forall_mem_append.2 ⟨hd24, ?_⟩, hsettle, hpending⟩
  exact List.forall_mem_singleton.2 ((stage6Take_stage5Take_length c sec _ _).trans hsec)

/-! ### The whole machine -/

/-- Each stage hands on whole sections, and stage 4 and the output queues hold whole sections. -/
theorem pipelineKeeps_sectionsWhole (c : Params) :
    PipelineKeeps c SectionsWhole (fun sec => sec.frames.length = 98) where
  counters _ _ h := h
  symbols _ _ h := h
  token _ _ h := h
  flush1 _ h := h
  frame f s _ _ h he := ⟨h, Flow.units_of_ok he ▸ stage3Take_whole c f (s.f3, s.cnt)⟩
  frameHalt _ _ _ _ h _ := h
  flush3 s _ _ h he := ⟨h, Flow.units_of_ok he ▸ stage3Flush_whole c (s.f3, s.cnt)⟩
  flush3Halt _ _ _ h _ := h
  record := fun sec s x secs ⟨hf2, hd24, h4⟩ hsec he => by
    obtain ⟨hst, hunits⟩ := stage4Take_whole c s.watermark (x := (s.f2c, s.cnt)) h4 hsec
    rw [Flow.state_of_ok he] at hst
    rw [Flow.units_of_ok he] at hunits
    exact ⟨⟨hf2, hd24, hst⟩, hunits⟩
  recordHalt := fun sec s x info ⟨hf2, hd24, h4⟩ hsec he => by
    obtain ⟨hst, -⟩ := stage4Take_whole c s.watermark (x := (s.f2c, s.cnt)) h4 hsec
    rw [Flow.state_of_fatal he] at hst
    exact ⟨hf2, hd24, hst⟩
  flush4 := fun _ ⟨hf2, hd24, _, hpending⟩ => ⟨⟨hf2, hd24, allWhole_nil, allWhole_nil⟩, hpending⟩
  out _ _ h hsec := outSection_whole c h hsec
  flush5 _ h := h

/-- A pop keeps the sections that stay whole. -/
theorem sectionsWhole_popF2 {s : State} {sec : F2Section} {rest : List F2Section} (h : SectionsWhole s)
    (hq : s.f2Out = sec :: rest) : SectionsWhole { s with f2Out := rest } := by
  obtain ⟨hf2, hmore⟩ := h
  rw [hq] at hf2
  exact ⟨(List.forall_mem_cons.1 hf2).2, hmore⟩

@[inherit_doc sectionsWhole_popF2]
theorem sectionsWhole_popD24 {s : State} {sec : F1Section} {rest : List F1Section} (h : SectionsWhole s)
    (hq : s.d24Out = sec :: rest) : SectionsWhole { s with d24Out := rest } := by
  obtain ⟨hf2, hd24, hmore⟩ := h
  rw [hq] at hd24
  exact ⟨hf2, (List.forall_mem_cons.1 hd24).2, hmore⟩

/-- Settles O54: sections are finished whole, and no later rule changes the number of their frames. -/
theorem stepKeepsSectionsWhole : Obligations.StepKeepsSectionsWhole := fun _ _ hwhole h =>
  step_keeps (P := SectionsWhole)
    (fun _ _ _ => exec_keeps (pipelineKeeps_sectionsWhole _) (fun _ _ _ => sectionsWhole_reset)
      (fun _ _ _ ht => ht) (fun _ _ _ ht => ht) (fun _ _ _ _ ht hq => sectionsWhole_popF2 ht hq)
      (fun _ _ _ _ ht hq => sectionsWhole_popD24 ht hq))
    (fun _ _ ht => ht) h hwhole

end Sys2Proof.Machine
end

section
/-! The encodings: decode and encode undo each other (R132, R180, R181, R186), and the EFM table has one symbol for each
code (R138). -/

namespace Sys2Proof

/-! ### The row of a token byte (R130, R131) -/

/-- The row of a token byte below 12 is well-formed and encoded by that byte. -/
theorem tokenInstr_row_of_lt (n : Fin 12) :
    wellFormed (tokenInstr (BitVec.ofNat 8 n)) = true ∧
      encode (tokenInstr (BitVec.ofNat 8 n)) = [.token (BitVec.ofNat 8 n)] := by
  revert n
  decide

/-- The token bytes from 12 on share the row TV_LONG. -/
theorem tokenInstr_of_le {b : Byte} (h : 12 ≤ b.toNat) : tokenInstr b = .tvLong b := by
  unfold tokenInstr
  split
  case h_13 => rfl
  all_goals omega

/-- The row of a token byte is well-formed and encoded by that byte. -/
theorem tokenInstr_row (b : Byte) : wellFormed (tokenInstr b) = true ∧ encode (tokenInstr b) = [.token b] := by
  by_cases h : b.toNat < 12
  · have hrow := tokenInstr_row_of_lt ⟨b.toNat, h⟩
    rwa [BitVec.ofNat_toNat, BitVec.setWidth_eq] at hrow
  · rw [not_lt] at h
    rw [tokenInstr_of_le h]
    exact ⟨decide_eq_true h, rfl⟩

/-- A token other than 11 is read alone, whatever follows it (R132). -/
theorem decode_token_of_ne {a : Byte} {i : Instr} (hne : a ≠ 0x0B#8) (hrow : tokenInstr a = i)
    (rest : List PortItem) : decode (.token a :: rest) = .ok (i, rest) :=
  hrow ▸ decode_token fun _ hsync => hne hsync.1

/-- The tokens of TV_SHORT are 1 and 2 (R131). -/
theorem wellFormed_tvShort {t : BitVec 2} : wellFormed (.tvShort t) = true ↔ t = 1#2 ∨ t = 2#2 := by
  simp [wellFormed, wellFormedWith]

/-! ### The row of a channel symbol (R251, R254) -/

/-- The row of a symbol is well-formed and encoded by that symbol. -/
theorem symbolInstr_row (v : Symbol) :
    wellFormed (symbolInstrWith Config.machine v) = true ∧ encode (symbolInstrWith Config.machine v) = [.symbol v] := by
  unfold symbolInstrWith
  split
  all_goals
    next h => exact ⟨by simp [wellFormed, wellFormedWith, h], rfl⟩

/-- A symbol is data if its code is a byte (R254). -/
theorem wellFormed_symData {v : Symbol} :
    wellFormed (.symData v) = true ↔ ∃ b, Config.machine.efmDecode v = .byte b := by
  simp only [wellFormed, wellFormedWith]
  cases Config.machine.efmDecode v <;> simp

/-! ### The row of a register write (R171, R530, R534, R535, R538) -/

/-- A CTRL word by its ignored bits and its two command bits. -/
theorem exists_controlWord (v : Word) :
    ∃ (hi : BitVec 30) (b1 b0 : Bool), v = hi ++ (BitVec.ofBool b1 ++ BitVec.ofBool b0) := by
  have hbits : v.extractLsb' 0 2 = BitVec.ofBool (v.getLsbD 1) ++ BitVec.ofBool (v.getLsbD 0) := by
    apply BitVec.eq_of_getLsbD_eq
    intro i hi
    rw [BitVec.getLsbD_append, BitVec.getLsbD_extractLsb']
    interval_cases i <;> simp
  exact ⟨_, _, _, by rw [← hbits, controlWord_eta]⟩

/-- Bit 1 of a CTRL word says RESET, bit 0 alone FLUSH; with neither the write is no command (entry 17). -/
theorem writeInstr_control (hi : BitVec 30) (b1 b0 : Bool) :
    writeInstr 0x000#12 (hi ++ (BitVec.ofBool b1 ++ BitVec.ofBool b0)) =
      if b1 then .reset hi b0 else if b0 then .flush hi
      else .regWrite 0x000#12 (hi ++ (BitVec.ofBool b1 ++ BitVec.ofBool b0)) := by
  unfold writeInstr
  rw [if_neg (by decide), if_pos rfl, controlWord_lo hi _ Nat.one_lt_two, controlWord_lo hi _ Nat.two_pos,
    controlWord_hi]
  cases b1 <;> cases b0 <;> rfl

/-- The two low bits of a multiple of 4. -/
theorem mod_four_eq_zero_iff (v : Word) : v.toNat % 4 = 0 ↔ v.getLsbD 1 = false ∧ v.getLsbD 0 = false := by
  simp only [BitVec.getLsbD, Nat.testBit_eq_decide_div_mod_eq, decide_eq_false_iff_not]
  omega

/-- A CTRL word is a multiple of 4 if it is no command. -/
theorem controlWord_mod_four (hi : BitVec 30) (b1 b0 : Bool) :
    (hi ++ (BitVec.ofBool b1 ++ BitVec.ofBool b0)).toNat % 4 = 0 ↔ b1 = false ∧ b0 = false := by
  rw [mod_four_eq_zero_iff, controlWord_lo hi _ Nat.one_lt_two, controlWord_lo hi _ Nat.two_pos]
  cases b1 <;> cases b0 <;> decide

theorem wellFormed_regWrite {addr : Addr} {v : Word} :
    wellFormed (.regWrite addr v) = true ↔
      addr.toNat % 4 = 0 ∧ addr ≠ 0x014#12 ∧ (addr ≠ 0x000#12 ∨ v.toNat % 4 = 0) := by
  simp [wellFormed, wellFormedWith, regWriteAdmitted, and_assoc]

/-- A write to neither CTRL nor TV_DATA is a REG_WRITE. -/
theorem writeInstr_of_ne {addr : Addr} (hdata : addr ≠ 0x014#12) (hctrl : addr ≠ 0x000#12) (v : Word) :
    writeInstr addr v = .regWrite addr v := by
  rw [writeInstr, if_neg hdata, if_neg hctrl]

/-- A well-formed REG_WRITE is read back from its address and value. -/
theorem writeInstr_regWrite {addr : Addr} {v : Word} (h : wellFormed (.regWrite addr v) = true) :
    writeInstr addr v = .regWrite addr v := by
  obtain ⟨-, hdata, hcommand⟩ := wellFormed_regWrite.1 h
  by_cases hctrl : addr = 0x000#12
  · obtain ⟨hi, b1, b0, rfl⟩ := exists_controlWord v
    obtain ⟨rfl, rfl⟩ := (controlWord_mod_four hi b1 b0).1 (hcommand.resolve_left (not_not.2 hctrl))
    rw [hctrl, writeInstr_control]
    rfl
  · exact writeInstr_of_ne hdata hctrl v

/-- The row of a write to CTRL is well-formed and encoded by that write. -/
theorem writeInstr_control_row (v : Word) :
    wellFormed (writeInstr 0x000#12 v) = true ∧ encode (writeInstr 0x000#12 v) = [.memWrite 4 0x000#12 v] := by
  obtain ⟨hi, b1, b0, rfl⟩ := exists_controlWord v
  rw [writeInstr_control]
  cases b1 with
  | true => exact ⟨rfl, rfl⟩
  | false =>
    cases b0 with
    | true => exact ⟨rfl, rfl⟩
    | false =>
      exact ⟨wellFormed_regWrite.2 ⟨rfl, by decide, .inr ((controlWord_mod_four hi false false).2 ⟨rfl, rfl⟩)⟩, rfl⟩

/-- The row of an admitted write is well-formed and encoded by that write: no bit of the value is dropped. -/
theorem writeInstr_row {addr : Addr} (h : addr.toNat % 4 = 0) (v : Word) :
    wellFormed (writeInstr addr v) = true ∧ encode (writeInstr addr v) = [.memWrite 4 addr v] := by
  by_cases hdata : addr = 0x014#12
  · subst hdata
    exact ⟨rfl, rfl⟩
  by_cases hctrl : addr = 0x000#12
  · subst hctrl
    exact writeInstr_control_row v
  · rw [writeInstr_of_ne hdata hctrl]
    exact ⟨wellFormed_regWrite.2 ⟨h, hdata, .inl hctrl⟩, rfl⟩

/-- An admitted write is read as the row of its address and value. -/
theorem decode_write {addr : Addr} {v : Word} {i : Instr} (haligned : addr.toNat % 4 = 0) (hrow : writeInstr addr v = i)
    (rest : List PortItem) : decode (.memWrite 4 addr v :: rest) = .ok (i, rest) :=
  hrow ▸ decode_memWrite haligned v rest

/-! ### Decode after encode -/

/-- Settles O1, row by row. -/
theorem decodeAfterEncode : Obligations.DecodeAfterEncode := by
  intro i rest hwf hlone
  cases i with
  | t3 | t4 | t5 | t6 | t7 | t8 | t9 | t10 | tvZero => exact decode_token_of_ne (by decide) rfl rest
  | t11 => exact decode_token fun more hsync => hlone rfl more hsync.2
  | tvShort t =>
    rcases wellFormed_tvShort.1 hwf with rfl | rfl
    · exact decode_token_of_ne (by decide) rfl rest
    · exact decode_token_of_ne (by decide) rfl rest
  | tvLong t =>
    have hle : 12 ≤ t.toNat := of_decide_eq_true hwf
    have hne : t ≠ 0x0B#8 := by rintro rfl; exact absurd hle (by decide)
    exact decode_token_of_ne hne (tokenInstr_of_le hle) rest
  | sync => exact decode_sync rest
  | symSync0 v | symSync1 v | symInvalid v =>
    have hclass := eq_of_beq hwf
    exact (decode_symbol v rest).trans (by rw [symbolInstrWith, hclass])
  | symData v =>
    obtain ⟨b, hclass⟩ := wellFormed_symData.1 hwf
    exact (decode_symbol v rest).trans (by rw [symbolInstrWith, hclass])
  | pushTv v => exact decode_write rfl rfl rest
  | flush hi => exact decode_write rfl (writeInstr_control hi false true) rest
  | reset hi bit0 => exact decode_write rfl (writeInstr_control hi true bit0) rest
  | regRead addr => exact decode_memRead (eq_of_beq hwf) rest
  | regWrite addr v =>
    obtain ⟨haligned, -, -⟩ := wellFormed_regWrite.1 hwf
    exact decode_write haligned (writeInstr_regWrite hwf) rest
  | popF2 => exact decode_popF2 rest
  | popD24 => exact decode_popD24 rest

/-! ### Encode after decode -/

/-- What the decoder reads: the items `head` of one action, and the row they are. -/
inductive Reads : List PortItem → Instr → Prop where
  | sync : Reads [.token 0x0B#8, .token 0x0B#8] .sync
  | token (a : Byte) : Reads [.token a] (tokenInstr a)
  | symbol (v : Symbol) : Reads [.symbol v] (symbolInstrWith Config.machine v)
  | write {addr : Addr} (h : addr.toNat % 4 = 0) (v : Word) : Reads [.memWrite 4 addr v] (writeInstr addr v)
  | read {addr : Addr} (h : addr.toNat % 4 = 0) : Reads [.memRead 4 addr] (.regRead addr)
  | popF2 : Reads [.popF2] .popF2
  | popD24 : Reads [.popD24] .popD24

/-- An admitted access is 4 bytes wide at a multiple of 4 (R102). -/
theorem accessError_eq_none {width : Nat} {addr : Addr} :
    accessError width addr = none ↔ width = 4 ∧ addr.toNat % 4 = 0 := by
  unfold accessError
  split_ifs with hwidth haddr
  · exact iff_of_false nofun fun h => hwidth h.1
  · exact iff_of_false nofun fun h => haddr h.2
  · exact iff_of_true rfl ⟨not_not.1 hwidth, not_not.1 haddr⟩

/-- What the decoder accepts begins with one action, and the rest is left. -/
theorem reads_of_decode {items : List PortItem} {i : Instr} {rest : List PortItem}
    (h : decode items = .ok (i, rest)) : ∃ head, items = head ++ rest ∧ Reads head i := by
  cases items with
  | nil => cases h
  | cons item more =>
    cases item with
    | token a =>
      by_cases hsync : ∃ more', a = 0x0B#8 ∧ more = .token 0x0B#8 :: more'
      · obtain ⟨more', rfl, rfl⟩ := hsync
        cases h
        exact ⟨_, rfl, .sync⟩
      · rw [decode_token (not_exists.1 hsync)] at h
        cases h
        exact ⟨[_], rfl, .token a⟩
    | symbol v => cases h; exact ⟨[_], rfl, .symbol v⟩
    | memWrite width addr v =>
      cases haccess : accessError width addr with
      | some e => rw [Machine.decode_of_accessError more (.inl ⟨v, rfl⟩) haccess] at h; cases h
      | none =>
        obtain ⟨rfl, haligned⟩ := accessError_eq_none.1 haccess
        rw [decode_memWrite haligned] at h
        cases h
        exact ⟨[_], rfl, .write haligned v⟩
    | memRead width addr =>
      cases haccess : accessError width addr with
      | some e => rw [Machine.decode_of_accessError more (.inr rfl) haccess] at h; cases h
      | none =>
        obtain ⟨rfl, haligned⟩ := accessError_eq_none.1 haccess
        rw [decode_memRead haligned] at h
        cases h
        exact ⟨[_], rfl, .read haligned⟩
    | popF2 => cases h; exact ⟨[_], rfl, .popF2⟩
    | popD24 => cases h; exact ⟨[_], rfl, .popD24⟩

/-- The row read from an action is well-formed and has the action as its encoding. -/
theorem Reads.row {head : List PortItem} {i : Instr} (h : Reads head i) : wellFormed i = true ∧ encode i = head := by
  cases h with
  | sync => exact ⟨rfl, rfl⟩
  | token a => exact tokenInstr_row a
  | symbol v => exact symbolInstr_row v
  | write haligned v => exact writeInstr_row haligned v
  | read haligned => exact ⟨beq_iff_eq.2 haligned, rfl⟩
  | popF2 => exact ⟨rfl, rfl⟩
  | popD24 => exact ⟨rfl, rfl⟩

/-- Settles O2, by what one action at the ports is read as. -/
theorem encodeAfterDecode : Obligations.EncodeAfterDecode := by
  intro items i rest h
  obtain ⟨head, hitems, hreads⟩ := reads_of_decode h
  obtain ⟨hwf, hencode⟩ := hreads.row
  exact ⟨hwf, by rw [hitems, hencode]⟩

/-! ### Words of the opcode table, SYNC -/

/-- A word that stands for the encoding of a well-formed row decodes to that row. -/
theorem decodeTableWord_of_encode {nbits w : Nat} {i : Instr} (hwf : wellFormed i = true)
    (h : tableItems nbits w = encode i) : decodeTableWord nbits w = some i := by
  have hdecode := decodeAfterEncode i [] hwf (by simp)
  rw [List.append_nil] at hdecode
  rw [decodeTableWord, h, hdecode]

/-- Settles O3: each token word is the encoding of its row, and each write is read by its address and value. -/
theorem tableWordsDecode : Obligations.TableWordsDecode :=
  ⟨decodeTableWord_of_encode rfl rfl, decodeTableWord_of_encode rfl rfl, decodeTableWord_of_encode rfl rfl,
    decodeTableWord_of_encode rfl rfl, decodeTableWord_of_encode rfl rfl, decodeTableWord_of_encode rfl rfl,
    decode_memWrite rfl _ [], decode_memWrite rfl _ [], decode_memWrite rfl _ []⟩

/-- Settles O17: a token never refuses, and SYNC pushes two tokens 11. -/
theorem syncIsTwoTokensEleven : Obligations.SyncIsTwoTokensEleven := fun _ => ⟨_, _, rfl, rfl, rfl⟩

/-! ### The EFM table (R138) -/

/-- The classes of the table index, each by its numbers (R138). -/
theorem ofIndex_eq_byte {k : Symbol} {b : Byte} : EfmCode.ofIndex k = .byte b ↔ k = b.setWidth 14 := by
  have := b.isLt
  unfold EfmCode.ofIndex
  split_ifs with hbyte h0 h1
  · rw [EfmCode.byte.injEq, ← BitVec.toNat_inj, ← BitVec.toNat_inj, BitVec.toNat_ofNat, BitVec.toNat_setWidth]
    omega
  all_goals
    refine iff_of_false nofun ?_
    rintro rfl
    rw [BitVec.toNat_setWidth] at hbyte
    omega

theorem ofIndex_eq_sync0 {k : Symbol} : EfmCode.ofIndex k = .sync0 ↔ k = 256#14 := by
  unfold EfmCode.ofIndex
  split_ifs <;> simp <;> bv_omega

theorem ofIndex_eq_sync1 {k : Symbol} : EfmCode.ofIndex k = .sync1 ↔ k = 257#14 := by
  unfold EfmCode.ofIndex
  split_ifs <;> simp <;> bv_omega

theorem ofIndex_eq_invalid {k : Symbol} : EfmCode.ofIndex k = .invalid ↔ 258 ≤ k.toNat := by
  unfold EfmCode.ofIndex
  split_ifs <;> simp <;> omega

/-- The machine's table reads the code of the symbol's index (entry 7). -/
theorem efmDecode_eq (v : Symbol) : Config.machine.efmDecode v = EfmCode.ofIndex (Config.efmIndex v) := rfl

/-- A code with one table index is the code of one symbol. -/
theorem existsUnique_efmDecode {d : EfmCode} {k : Symbol} (h : ∀ j, EfmCode.ofIndex j = d ↔ j = k) :
    ∃! v : Symbol, Config.machine.efmDecode v = d := by
  refine ⟨Config.efmIndex.symm k, (h _).2 (Config.efmIndex.apply_symm_apply k), fun v hv => ?_⟩
  exact (Config.efmIndex.eq_symm_apply).2 ((h _).1 hv)

/-- The symbols of the table indices from 258 on. -/
def invalidSymbols : List Symbol :=
  (List.range' 258 16126).map fun n => Config.efmIndex.symm (BitVec.ofNat 14 n)

/-- They are the symbols that decode to nothing. -/
theorem mem_invalidSymbols (v : Symbol) : v ∈ invalidSymbols ↔ Config.machine.efmDecode v = .invalid := by
  rw [efmDecode_eq, ofIndex_eq_invalid, invalidSymbols, List.mem_map]
  constructor
  · rintro ⟨n, hn, rfl⟩
    rw [List.mem_range'_1] at hn
    rw [Equiv.apply_symm_apply, BitVec.toNat_ofNat]
    omega
  · intro h
    refine ⟨(Config.efmIndex v).toNat, List.mem_range'_1.2 ⟨h, (Config.efmIndex v).isLt⟩, ?_⟩
    rw [BitVec.ofNat_toNat, BitVec.setWidth_eq, Equiv.symm_apply_apply]

/-- Different indices have different symbols. -/
theorem nodup_invalidSymbols : invalidSymbols.Nodup := by
  refine List.Nodup.map_on (fun m hm n hn h => ?_) List.nodup_range'
  rw [List.mem_range'_1] at hm hn
  have hindex := congrArg BitVec.toNat (Config.efmIndex.symm.injective h)
  rw [BitVec.toNat_ofNat, BitVec.toNat_ofNat] at hindex
  omega

/-- Settles O4: the table is a permutation, so each index has one symbol. -/
theorem efmTableHasOneSymbolPerCode : Obligations.EfmTableHasOneSymbolPerCode :=
  ⟨fun _ => existsUnique_efmDecode fun _ => ofIndex_eq_byte, existsUnique_efmDecode fun _ => ofIndex_eq_sync0,
    existsUnique_efmDecode fun _ => ofIndex_eq_sync1,
    invalidSymbols, nodup_invalidSymbols, by rw [invalidSymbols, List.length_map, List.length_range'],
    mem_invalidSymbols⟩

end Sys2Proof
end

section
/-! The layout of the records, the fields of STATUS and OUT_LEVEL, and the symbols of a channel frame one by one (R135,
R165, R172, R174, R250). -/

namespace Sys2Proof.Machine

/-! ### The fields of a record, byte by byte (R109, R165) -/

/-- The model's byte of a flag is the one R165 names. -/
theorem boolByte_eq_flagByte (b : Bool) : boolByte b = flagByte b := rfl

/-- Byte `k` of a value, counted from the lowest, is its eight bits from `8 * k` on. -/
theorem ofNat_div_pow_eq_extractLsb' {m : Nat} (w : BitVec m) (k : Nat) :
    BitVec.ofNat 8 (w.toNat / 256 ^ k) = w.extractLsb' (8 * k) 8 := by
  apply BitVec.eq_of_toNat_eq
  rw [BitVec.toNat_ofNat, BitVec.extractLsb'_toNat, Nat.shiftRight_eq_div_pow, Nat.pow_mul]

/-- The big-endian bytes of a word, by their bit offsets. -/
theorem beBytes_eq_extractLsb' {m : Nat} (n : Nat) (w : BitVec m) :
    beBytes n w.toNat = (List.range n).map fun k => w.extractLsb' (8 * (n - 1 - k)) 8 :=
  List.map_congr_left fun k _ => ofNat_div_pow_eq_extractLsb' w (n - 1 - k)

/-- No bit of a word stands above its width. -/
theorem extractLsb'_of_le {m start : Nat} (w : BitVec m) (len : Nat) (h : m ≤ start) :
    w.extractLsb' start len = 0#len := by
  apply BitVec.eq_of_getLsbD_eq
  intro i hi
  simp [BitVec.getLsbD_of_ge w (start + i) (by omega)]

/-- The eight bytes of a catalogue number, whose 52 bits leave the first one 0. -/
theorem beBytes_catalogue (w : BitVec 52) :
    beBytes 8 w.toNat = 0x00#8 :: (List.range 7).map fun k => w.extractLsb' (8 * (6 - k)) 8 := by
  rw [beBytes_eq_extractLsb', ← extractLsb'_of_le w 8 (show 52 ≤ 56 by decide)]
  rfl

/-- The 30 bytes before the frames of a record of 98 frames. -/
theorem recordHeader_eq (tag size : Byte) (m : SectionMeta) :
    [tag] ++ beBytes 2 98 ++ [size] ++ metaBytes m = recordHeader tag size m := by
  rw [metaBytes, beBytes_catalogue, beBytes_eq_extractLsb', beBytes_eq_extractLsb']
  rfl

/-! ### The frames of a record (R165) -/

/-- The planes of a frame: its data bytes, its error flags and its padded flags. -/
theorem frameBytes_getElem? {n : Nat} (x : Vector Cell n) (p : Fin n) :
    (frameBytes x)[p.val]? = some x[p].data ∧ (frameBytes x)[n + p.val]? = some (flagByte x[p].error) ∧
      (frameBytes x)[2 * n + p.val]? = some (flagByte x[p].padded) := by
  have hp := p.isLt
  unfold frameBytes
  refine ⟨?_, ?_, ?_⟩
  · rw [List.getElem?_append_left (by simp; omega), List.getElem?_append_left (by simp)]
    simp
  · rw [List.getElem?_append_left (by simp), List.getElem?_append_right (by simp)]
    simp [boolByte_eq_flagByte]
  · rw [List.getElem?_append_right (by simp; omega)]
    simp [boolByte_eq_flagByte, show 2 * n + p.val - (n + n) = p.val by omega]

theorem flatMap_frameBytes_length {n : Nat} (frames : List (Vector Cell n)) :
    (frames.flatMap frameBytes).length = frames.length * (3 * n) := by
  simp [List.length_flatMap]

/-- Frame `k` of a section starts `3n * k` bytes after the first. -/
theorem flatMap_frameBytes_getElem? {n : Nat} {frames : List (Vector Cell n)} {k : Nat} {x : Vector Cell n}
    (h : frames[k]? = some x) {j : Nat} (hj : j < 3 * n) :
    (frames.flatMap frameBytes)[3 * n * k + j]? = (frameBytes x)[j]? := by
  induction frames generalizing k with
  | nil => cases h
  | cons y ys ih =>
    rw [List.flatMap_cons]
    cases k with
    | zero =>
      cases h
      rw [Nat.mul_zero, Nat.zero_add, List.getElem?_append_left (by rwa [frameBytes_length])]
    | succ k =>
      have hoffset : 3 * n * (k + 1) + j = 3 * n + (3 * n * k + j) := by rw [Nat.mul_succ]; omega
      rw [hoffset, List.getElem?_append_right (by rw [frameBytes_length]; omega), frameBytes_length,
        Nat.add_sub_cancel_left]
      exact ih h

/-- A record of 98 frames is its header and the bytes of its frames (R165). -/
theorem recordBytes_eq {n : Nat} (tag : Byte) {frames : List (Vector Cell n)} (m : SectionMeta)
    (h : frames.length = 98) :
    recordBytes tag frames m = recordHeader tag (BitVec.ofNat 8 n) m ++ frames.flatMap frameBytes := by
  rw [recordBytes, h, recordHeader_eq]

theorem recordHeader_length (tag size : Byte) (m : SectionMeta) : (recordHeader tag size m).length = 30 := rfl

/-- The frames stand after 30 bytes of header. -/
theorem holdsFrames_of_header {n : Nat} {header : List Byte} (hlen : header.length = 30)
    (frames : List (Vector Cell n)) : HoldsFrames (header ++ frames.flatMap frameBytes) frames := by
  intro k x hx p
  have hp := p.isLt
  have hbyte (j : Nat) (hj : j < 3 * n) :
      (header ++ frames.flatMap frameBytes)[30 + 3 * n * k + j]? = (frameBytes x)[j]? := by
    rw [← flatMap_frameBytes_getElem? hx hj, Nat.add_assoc,
      List.getElem?_append_right (by omega), hlen, Nat.add_sub_cancel_left]
  rw [Nat.add_assoc (30 + 3 * n * k) n, Nat.add_assoc (30 + 3 * n * k) (2 * n), hbyte _ (by omega),
    hbyte _ (by omega), hbyte _ (by omega)]
  exact frameBytes_getElem? x p

/-- The layout of a record of 98 frames of `n` bytes: its length, its header and its frames (R165). -/
theorem recordBytes_layout {n : Nat} (tag : Byte) {frames : List (Vector Cell n)} (m : SectionMeta)
    (h : frames.length = 98) :
    (recordBytes tag frames m).length = 30 + 98 * (3 * n) ∧
      (recordBytes tag frames m).take 30 = recordHeader tag (BitVec.ofNat 8 n) m ∧
      HoldsFrames (recordBytes tag frames m) frames := by
  have hheader := recordHeader_length tag (BitVec.ofNat 8 n) m
  rw [recordBytes_eq tag m h]
  refine ⟨?_, List.take_left' hheader, holdsFrames_of_header hheader frames⟩
  rw [List.length_append, hheader, flatMap_frameBytes_length, h]

/-- Settles O12, for either frame size. -/
theorem recordsHaveTheirLayout : Obligations.RecordsHaveTheirLayout := by
  intro f d hf hd
  obtain ⟨hlenF, hheaderF, hframesF⟩ := recordBytes_layout 0xF2#8 f.info hf
  obtain ⟨hlenD, hheaderD, hframesD⟩ := recordBytes_layout 0xD4#8 d.info hd
  exact ⟨hlenF, hheaderF, hframesF, hlenD, hheaderD, hframesD⟩

/-! ### STATUS and OUT_LEVEL (R172, R174) -/

/-- Each field of STATUS stands above the widths of the fields below it (R172). -/
theorem statusWord_fields (s : State) :
    (statusWord s).extractLsb' 0 1 = BitVec.ofBool s.fatal ∧
    (statusWord s).extractLsb' 1 3 = 0#3 ∧
    (statusWord s).extractLsb' 4 4 = fatalCauseCode s.fatalCause ∧
    (statusWord s).extractLsb' 8 2 = tvStateCode s.tv.state ∧
    (statusWord s).extractLsb' 10 1 = f3StateCode s.f3.state ∧
    (statusWord s).extractLsb' 11 2 = 0#2 ∧
    (statusWord s).extractLsb' 13 1 = f2cPhaseCode s.f2c.phase ∧
    (statusWord s).extractLsb' 14 1 = BitVec.ofBool (circPrimed s.circ) ∧
    (statusWord s).extractLsb' 15 1 = 0#1 ∧
    (statusWord s).extractLsb' 16 8 = BitVec.ofNat 8 s.f2c.pending.length ∧
    (statusWord s).extractLsb' 24 8 = 0#8 := by
  unfold statusWord
  refine ⟨?_, ?_, ?_, ?_, ?_, ?_, ?_, ?_, ?_, ?_, ?top⟩
  case top =>
    repeat rw [BitVec.extractLsb'_append_eq_of_le (by decide)]
    exact BitVec.extractLsb'_eq_self
  all_goals
    repeat rw [BitVec.extractLsb'_append_eq_of_le (by decide)]
    rw [BitVec.extractLsb'_append_eq_of_add_le (by decide)]
    exact BitVec.extractLsb'_eq_self

/-- The two halves of OUT_LEVEL (R174). -/
theorem outLevelWord_fields (s : State) :
    (outLevelWord s).extractLsb' 0 16 = BitVec.ofNat 16 (min s.f2Out.length 0xFFFF) ∧
    (outLevelWord s).extractLsb' 16 16 = BitVec.ofNat 16 (min s.d24Out.length 0xFFFF) := by
  unfold outLevelWord
  constructor
  · rw [BitVec.extractLsb'_append_eq_of_add_le (by decide)]
    exact BitVec.extractLsb'_eq_self
  · rw [BitVec.extractLsb'_append_eq_of_le (by decide)]
    exact BitVec.extractLsb'_eq_self

/-- A length saturated at 65535 fits 16 bits. -/
theorem toNat_ofNat_saturated (n : Nat) : (BitVec.ofNat 16 (min n 0xFFFF)).toNat = min n 65535 := by
  rw [BitVec.toNat_ofNat]
  omega

/-- Stage 5 is primed when every set has taken more pushes than its longest line (R172, R393). -/
theorem circPrimed_eq (st : Stage5) :
    circPrimed st = decide (1 < st.dl1.count ∧ 108 < st.dlM.count ∧ 2 < st.dl2.count) := by
  simp only [circPrimed, ready, Bool.decide_and, Bool.and_assoc]

/-- Settles O9, field by field. -/
theorem statusFieldsShowTheState : Obligations.StatusFieldsShowTheState := by
  intro s
  obtain ⟨hfatal, hlow, hcause, htv, hf3, hmid, hphase, hprimed, hbit15, hpending, hhigh⟩ := statusWord_fields s
  obtain ⟨hf2, hd24⟩ := outLevelWord_fields s
  rw [circPrimed_eq] at hprimed
  exact ⟨hfatal, hlow, hcause, htv, hf3, hmid, hphase, hprimed, hbit15, hpending, hhigh,
    by rw [hf2, toNat_ofNat_saturated], by rw [hd24, toNat_ofNat_saturated]⟩

/-! ### Stage 2 driven by single symbols (R135, R250, entry 5) -/

/-- The frame `p` after the data symbols `vs` (R254). -/
def PartialFrame.filled (c : Params) (p : PartialFrame) (vs : List Symbol) : PartialFrame :=
  { p with cells := p.cells ++ vs.map fun v => dataCell (c.efmDecode v) }

/-- The counters after the data symbols `vs` (R254). -/
def countDataSymbols (c : Params) (vs : List Symbol) (cnt : Counters) : Counters :=
  bump .efmDataSymbolErrors (vs.countP fun v => !isDataByte (c.efmDecode v)) cnt

@[simp] theorem PartialFrame.filled_length (c : Params) (p : PartialFrame) (vs : List Symbol) :
    (p.filled c vs).cells.length = p.cells.length + vs.length := by
  simp [filled]

/-- One more data symbol fills the next cell. -/
theorem PartialFrame.filled_snoc (c : Params) (p : PartialFrame) (vs : List Symbol) (v : Symbol) :
    p.filled c (vs ++ [v]) =
      { p.filled c vs with cells := (p.filled c vs).cells ++ [dataCell (c.efmDecode v)] } := by
  simp [filled]

/-- Symbols that are no data byte are counted one by one. -/
theorem countDataSymbols_snoc (c : Params) (vs : List Symbol) (v : Symbol) (cnt : Counters) :
    countDataSymbols c (vs ++ [v]) cnt = countDataSymbol (c.efmDecode v) (countDataSymbols c vs cnt) := by
  unfold countDataSymbols countDataSymbol
  cases h : isDataByte (c.efmDecode v) <;> simp [h]

theorem takeSymbols_cons (c : Params) (v : Symbol) (vs : List Symbol) (s : State) :
    takeSymbols c (v :: vs) s = takeSymbols c vs (takeSymbolCode c (c.efmDecode v) s) := rfl

theorem takeSymbols_snoc (c : Params) (vs : List Symbol) (v : Symbol) (s : State) :
    takeSymbols c (vs ++ [v]) s = takeSymbolCode c (c.efmDecode v) (takeSymbols c vs s) := List.foldl_append

/-- The first symbol of a frame is its subcode symbol. -/
theorem takeSymbolCode_subcode (c : Params) (d : EfmCode) {s : State} (hfatal : s.fatal = false)
    (hsym : s.sym = none) : takeSymbolCode c d s = takeSubcodeCode d s := by
  simp only [takeSymbolCode, hfatal, hsym]
  rfl

/-- The next ones are its data symbols. -/
theorem takeSymbolCode_data (c : Params) (d : EfmCode) {p : PartialFrame} {s : State} (hfatal : s.fatal = false)
    (hsym : s.sym = some p) : takeSymbolCode c d s = takeDataCode c d p s := by
  simp only [takeSymbolCode, hfatal, hsym]
  rfl

/-- One more data symbol of a frame that has taken `vs`: the frame stays unfinished, or is handed to stage 3. -/
theorem takeSymbolCode_filled (c : Params) (vs : List Symbol) (v : Symbol) (p : PartialFrame) {s : State}
    (hfatal : s.fatal = false) :
    takeSymbolCode c (c.efmDecode v) { s with sym := some (p.filled c vs), cnt := countDataSymbols c vs s.cnt } =
      if p.cells.length + (vs ++ [v]).length < 32 then
        { s with sym := some (p.filled c (vs ++ [v])), cnt := countDataSymbols c (vs ++ [v]) s.cnt }
      else
        runStage3 c (frameOfCells (p.filled c (vs ++ [v])))
          { s with sym := none, cnt := countDataSymbols c (vs ++ [v]) s.cnt } := by
  rw [← PartialFrame.filled_length c, PartialFrame.filled_snoc, countDataSymbols_snoc]
  exact takeSymbolCode_data c _ hfatal rfl

/-- Data symbols that leave the frame unfinished fill its next cells. -/
theorem takeSymbols_unfinished (c : Params) {vs : List Symbol} {p : PartialFrame} {s : State}
    (hfatal : s.fatal = false) (hsym : s.sym = some p) (hlen : p.cells.length + vs.length < 32) :
    takeSymbols c vs s = { s with sym := some (p.filled c vs), cnt := countDataSymbols c vs s.cnt } := by
  induction vs using List.reverseRecOn with
  | nil => simp [takeSymbols, PartialFrame.filled, countDataSymbols, ← hsym]
  | append_singleton vs v ih =>
    have hfewer : p.cells.length + vs.length < 32 := by
      rw [List.length_append] at hlen
      omega
    rw [takeSymbols_snoc, ih hfewer, takeSymbolCode_filled c vs v p hfatal, if_pos hlen]

/-- The data symbols of a frame fill its cells, and the last one hands it to stage 3 (R250, R254). -/
theorem takeSymbols_finished (c : Params) {vs : List Symbol} {p : PartialFrame} {s : State} (hfatal : s.fatal = false)
    (hsym : s.sym = some p) (hlen : p.cells.length + vs.length = 32) (hvs : vs ≠ []) :
    takeSymbols c vs s =
      runStage3 c (frameOfCells (p.filled c vs)) { s with sym := none, cnt := countDataSymbols c vs s.cnt } := by
  obtain ⟨us, v, rfl⟩ := (List.eq_nil_or_concat' vs).resolve_left hvs
  have hfewer : p.cells.length + us.length < 32 := by
    rw [List.length_append, List.length_singleton] at hlen
    omega
  rw [takeSymbols_snoc, takeSymbols_unfinished c hfatal hsym hfewer, takeSymbolCode_filled c us v p hfatal,
    if_neg hlen.not_lt]

/-- A frame of 585 or more bits has all its symbols (R136). -/
theorem symbolPresent_of_le {len i : Nat} (hlen : 585 ≤ len) (hi : i < 32) : symbolPresent len i = true :=
  decide_eq_true (by omega)

/-- The data symbols of a channel frame (R253). -/
def frameData (cf : ChannelFrame) : List Symbol := (List.range 32).map fun i => symbolAt cf (44 + 17 * i)

/-- The frame that all its symbols give is the frame the conversion gives (R250, R254). -/
theorem stage2Convert_eq_filled (c : Params) {cf : ChannelFrame} (hlen : 585 ≤ cf.length) (cnt : Counters) :
    stage2Convert c cf cnt =
      (frameOfCells (PartialFrame.filled c ⟨(subcodeType (c.efmDecode (symbolAt cf 27))).1,
          (subcodeType (c.efmDecode (symbolAt cf 27))).2, []⟩ (frameData cf)),
        countDataSymbols c (frameData cf) (countSubcode (c.efmDecode (symbolAt cf 27)) cnt)) := by
  have hmissing : missingSymbols cf = 0 := by
    rw [missingSymbols, List.countP_eq_zero]
    intro i hi
    simp [symbolPresent_of_le hlen (List.mem_range.1 hi)]
  have herrors : dataErrors c cf = (frameData cf).countP fun v => !isDataByte (c.efmDecode v) := by
    rw [dataErrors, frameData, List.countP_map]
    refine List.countP_congr fun i hi => ?_
    simp [symbolPresent_of_le hlen (List.mem_range.1 hi), dataCode]
  have hcells : ∀ i : Fin 32, decodeData c cf i.val =
      ((frameData cf).map fun v => dataCell (c.efmDecode v)).getD i.val Cell.zero := by
    intro i
    simp [decodeData, symbolPresent_of_le hlen i.isLt, dataCode, frameData]
  simp [stage2Convert, frameOfCells, PartialFrame.filled, countDataSymbols, hmissing, herrors, hcells]

/-- Settles O29: the subcode symbol starts the frame and the 32nd data symbol hands it to stage 3. -/
theorem symbolsOfAFrameMatchItsConversion : Obligations.SymbolsOfAFrameMatchItsConversion := by
  intro c cf s hlen hfatal hsym
  have hdata : (frameData cf).length = 32 := by simp [frameData]
  have hne : frameData cf ≠ [] := List.ne_nil_of_length_eq_add_one hdata
  calc takeSymbols c (frameSymbols cf) s
      = takeSymbols c (frameData cf) (takeSubcodeCode (c.efmDecode (symbolAt cf 27)) s) := by
        rw [frameSymbols, takeSymbols_cons, takeSymbolCode_subcode c _ hfatal hsym, frameData]
    _ = runStage3 c (stage2Convert c cf s.cnt).1 { s with sym := none, cnt := (stage2Convert c cf s.cnt).2 } := by
        rw [stage2Convert_eq_filled c hlen]
        exact takeSymbols_finished c hfatal rfl ((Nat.zero_add _).trans hdata) hne
    _ = runStage2 c cf s := by
        rw [← hsym]
        rfl

end Sys2Proof.Machine
end

section
/-! Token sequences, the sync matcher, the end of the stage loop and the window of channel frames (R201, R202, R205,
R214). -/

namespace Sys2Proof.Machine

/-! ### Channel bits (R201) -/

theorem expand_of_ne_zero {t : Byte} (ht : t ≠ 0) : expand t = true :: List.replicate (t.toNat - 1) false := if_neg ht

/-- A token stands for as many bits as its value, a token 0 for none (R131, R201). -/
@[simp] theorem expand_length (t : Byte) : (expand t).length = t.toNat := by
  by_cases ht : t = 0
  · subst ht
    rfl
  · have hpos : t.toNat ≠ 0 := fun h => ht (BitVec.eq_of_toNat_eq h)
    rw [expand_of_ne_zero ht, List.length_cons, List.length_replicate]
    omega

@[simp] theorem channelBits_length (ts : List Byte) : (channelBits ts).length = tokenSum ts := by
  induction ts with
  | nil => rfl
  | cons t ts ih => rw [channelBits_cons, List.length_append, expand_length, ih, tokenSum_cons]

theorem channelBits_append (a b : List Byte) : channelBits (a ++ b) = channelBits a ++ channelBits b :=
  List.flatMap_append

/-- Settles O19: a sequence expands token by token. -/
theorem tokensExpandToTheirRunLengths : Obligations.TokensExpandToTheirRunLengths :=
  ⟨fun _ => expand_of_ne_zero, rfl, channelBits_cons, channelBits_length, channelBits_append, by decide⟩

/-! ### The matcher (R202) -/

/-- A sync pattern stands at index `i`: two tokens 11 in a row (R132). -/
def SyncAt (s : List Byte) (i : Nat) : Prop := s[i]? = some 0x0B#8 ∧ s[i + 1]? = some 0x0B#8

theorem syncAt_drop {s : List Byte} {start k : Nat} : SyncAt (s.drop start) k ↔ SyncAt s (start + k) := by
  simp only [SyncAt, List.getElem?_drop, Nat.add_assoc]

theorem syncAt_cons_succ {a : Byte} {s : List Byte} {k : Nat} : SyncAt (a :: s) (k + 1) ↔ SyncAt s k := by
  simp only [SyncAt, List.getElem?_cons_succ]

/-- The pattern that `firstSync` finds stands there. -/
theorem syncAt_of_firstSync {s : List Byte} {i : Nat} (h : firstSync s = some i) : SyncAt s i := by
  obtain ⟨rest, hrest⟩ := firstSync_eq_zero.1 (firstSync_drop h).1
  have hat : SyncAt (s.drop i) 0 := hrest ▸ ⟨rfl, rfl⟩
  exact syncAt_drop.1 hat

/-- No pattern stands before the one that `firstSync` finds, and none at all if it finds none. -/
theorem not_syncAt_before_firstSync {s : List Byte} {k : Nat} (h : ∀ i, firstSync s = some i → k < i) :
    ¬ SyncAt s k := by
  induction s generalizing k with
  | nil => exact fun hk => nomatch hk.1
  | cons a s ih =>
    cases s with
    | nil => exact fun hk => nomatch hk.2
    | cons b rest =>
      rw [firstSync] at h
      split at h
      · exact absurd (h 0 rfl) (Nat.not_lt_zero k)
      · next hab =>
        cases k with
        | zero => exact fun hk => hab ⟨Option.some.inj hk.1, Option.some.inj hk.2⟩
        | succ k =>
          rw [syncAt_cons_succ]
          exact ih fun i hi => Nat.lt_of_succ_lt_succ (h (i + 1) (by rw [hi, Option.map_some]))

/-- The pattern that `findSync` finds stands at or after its start. -/
theorem syncAt_of_findSync {s : List Byte} {start i : Nat} (h : findSync s start = some i) :
    start ≤ i ∧ SyncAt s i := by
  obtain ⟨k, hk, rfl⟩ := Option.map_eq_some_iff.1 h
  exact ⟨Nat.le_add_right start k, syncAt_drop.1 (syncAt_of_firstSync hk)⟩

/-- From its start on, no pattern stands before the one that `findSync` finds, and none at all if it finds none. -/
theorem not_syncAt_before_findSync {s : List Byte} {start k : Nat} (hk : start ≤ k)
    (h : ∀ i, findSync s start = some i → k < i) : ¬ SyncAt s k := by
  obtain ⟨d, rfl⟩ := Nat.exists_eq_add_of_le hk
  rw [← syncAt_drop]
  refine not_syncAt_before_firstSync fun i hi => ?_
  have := h (start + i) (by rw [findSync, hi, Option.map_some])
  omega

theorem findSync_eq_some_iff {s : List Byte} {start i : Nat} :
    findSync s start = some i ↔ start ≤ i ∧ SyncAt s i ∧ ∀ k, start ≤ k → k < i → ¬ SyncAt s k := by
  constructor
  · intro h
    obtain ⟨hle, hat⟩ := syncAt_of_findSync h
    refine ⟨hle, hat, fun k hk hlt => not_syncAt_before_findSync hk fun j hj => ?_⟩
    rwa [← Option.some.inj (h.symm.trans hj)]
  · rintro ⟨hle, hat, hbefore⟩
    cases h : findSync s start with
    | none => exact absurd hat (not_syncAt_before_findSync hle fun j hj => by cases h.symm.trans hj)
    | some j =>
      obtain ⟨hle', hat'⟩ := syncAt_of_findSync h
      have hij : i ≤ j := not_lt.1 fun hlt => hbefore j hle' hlt hat'
      have hji : j ≤ i := not_lt.1 fun hlt =>
        not_syncAt_before_findSync hle (fun l hl => Option.some.inj (h.symm.trans hl) ▸ hlt) hat
      rw [Nat.le_antisymm hij hji]

theorem findSync_eq_none_iff {s : List Byte} {start : Nat} :
    findSync s start = none ↔ ∀ k, start ≤ k → ¬ SyncAt s k := by
  constructor
  · exact fun h k hk => not_syncAt_before_findSync hk fun j hj => by cases h.symm.trans hj
  · intro h
    refine Option.eq_none_iff_forall_ne_some.2 fun j hj => ?_
    obtain ⟨hle, hat⟩ := syncAt_of_findSync hj
    exact h j hle hat

/-- Settles O20: the matcher finds a pattern, and there is none before it. -/
theorem findSyncIsLeftmost : Obligations.FindSyncIsLeftmost := fun s start =>
  ⟨fun i => findSync_eq_some_iff.trans (by rw [SyncAt, and_assoc]; rfl), findSync_eq_none_iff⟩

/-! ### The stage loop ends by waiting (R205, entry 12) -/

/-- A bound on the rules that stage 1 can still run from any state: as `stage1Measure`, but a probe at index 0, which
no run reaches, gives its buffer back whole to `ExpectingSync`. -/
def ruleBudget (st : Stage1) : Nat :=
  stage1Measure st + if st.state = .handleUndershoot ∧ st.undJ = 0 then 2 else 0

/-- The loop's bound is enough for its budget. -/
theorem ruleBudget_lt_fuel (st : Stage1) : ruleBudget st < stage1Fuel st := by
  unfold ruleBudget stage1Measure stage1Fuel
  split <;> split <;> omega

@[simp] theorem ruleBudget_initialSync (buf : List Byte) (u : Nat) :
    ruleBudget ⟨buf, .expectingInitialSync, u⟩ = 2 * buf.length + 2 := rfl

@[simp] theorem ruleBudget_expectingSync (buf : List Byte) (u : Nat) :
    ruleBudget ⟨buf, .expectingSync, u⟩ = 2 * buf.length + 1 := rfl

@[simp] theorem ruleBudget_handleUndershoot (buf : List Byte) (u : Nat) :
    ruleBudget ⟨buf, .handleUndershoot, u⟩ = 2 * buf.length + if u = 0 then 2 else 0 := by
  simp [ruleBudget, stage1Measure]

/-- A token is a byte, so a large sum needs several tokens (R130). -/
theorem tokenSum_le (s : List Byte) : tokenSum s ≤ 255 * s.length := by
  induction s with
  | nil => exact Nat.le_refl 0
  | cons t ts ih =>
    rw [tokenSum_cons, List.length_cons]
    have := t.isLt
    omega

/-- Tokens past the search limit are at least two (R207). -/
theorem two_le_length_of_searchLimit {s : List Byte} (h : 1187 < pendingBits s) : 2 ≤ s.length := by
  have hle := tokenSum_le s
  have hpend : pendingBits s ≤ tokenSum s := Nat.sub_le _ _
  omega

/-- Initial sync (R206). -/
theorem tvInitialSync_budget {buf : List Byte} {u : Nat} {cnt : Counters}
    (h : (tvInitialSync ⟨buf, .expectingInitialSync, u⟩ cnt).again = true) :
    ruleBudget (tvInitialSync ⟨buf, .expectingInitialSync, u⟩ cnt).st <
      ruleBudget ⟨buf, .expectingInitialSync, u⟩ := by
  unfold tvInitialSync at h ⊢
  split at h
  · simp only [ruleBudget_initialSync, ruleBudget_expectingSync, List.length_drop]
    omega
  · cases h

/-- Look for the next sync, overshoot and lost sync (R207 to R209, R212). -/
theorem tvExpectSync_budget {buf : List Byte} {u : Nat} {cnt : Counters}
    (h : (tvExpectSync ⟨buf, .expectingSync, u⟩ cnt).again = true) :
    ruleBudget (tvExpectSync ⟨buf, .expectingSync, u⟩ cnt).st < ruleBudget ⟨buf, .expectingSync, u⟩ := by
  unfold tvExpectSync at h ⊢
  split at h
  · next j hj =>
    obtain ⟨hge, hlen⟩ : 2 ≤ j ∧ j + 2 ≤ buf.length := (findSync_drop hj).2
    have hdrop : ruleBudget ⟨buf.drop j, .expectingSync, u⟩ < ruleBudget ⟨buf, .expectingSync, u⟩ := by
      simp only [ruleBudget_expectingSync, List.length_drop]
      omega
    split
    · exact hdrop
    split
    · have hj0 : j ≠ 0 := by omega
      simp [hj0]
    · rw [tvOvershoot]
      split <;> exact hdrop
  · split at h
    · next hpend =>
      have hlen : 2 ≤ buf.length := two_le_length_of_searchLimit hpend
      rw [if_pos hpend, tvLostSync, ruleBudget_initialSync, ruleBudget_expectingSync, List.length_drop]
      simp only
      split <;> omega
    · cases h

/-- Undershoot probe and timeout (R211, R213). -/
theorem tvUndershoot_budget {buf : List Byte} {u : Nat} {cnt : Counters}
    (h : (tvUndershoot ⟨buf, .handleUndershoot, u⟩ cnt).again = true) :
    ruleBudget (tvUndershoot ⟨buf, .handleUndershoot, u⟩ cnt).st < ruleBudget ⟨buf, .handleUndershoot, u⟩ := by
  have hdrop {j : Nat} (hj : j = u ∨ u < j) (hlen : 1 ≤ buf.length) :
      ruleBudget ⟨buf.drop j, .expectingSync, u⟩ < ruleBudget ⟨buf, .handleUndershoot, u⟩ := by
    rw [ruleBudget_expectingSync, ruleBudget_handleUndershoot, List.length_drop]
    split <;> omega
  unfold tvUndershoot at h ⊢
  split at h
  · next k hk =>
    obtain ⟨hge, hlen⟩ : u + 2 ≤ k ∧ k + 2 ≤ buf.length := (findSync_drop hk).2
    split
    · exact hdrop (.inr (by omega)) (by omega)
    · exact hdrop (.inl rfl) (by omega)
  · split at h
    · next hpend =>
      have hlen : 2 ≤ buf.length := two_le_length_of_searchLimit hpend
      rw [if_pos hpend]
      exact hdrop (.inl rfl) (by omega)
    · cases h

/-- Every rule that goes on leaves less to do, from whatever state. -/
theorem stage1Rule_budget {st : Stage1} {cnt : Counters} (h : (stage1Rule st cnt).again = true) :
    ruleBudget (stage1Rule st cnt).st < ruleBudget st := by
  obtain ⟨buf, state, u⟩ := st
  cases state with
  | expectingInitialSync => exact tvInitialSync_budget h
  | expectingSync => exact tvExpectSync_budget h
  | handleUndershoot => exact tvUndershoot_budget h
  | handleOvershoot => cases h

/-- A loop with rules enough ends by waiting. -/
theorem stage1Loop_waits {fuel : Nat} {st : Stage1} {cnt : Counters} (hfuel : ruleBudget st < fuel) :
    (stage1Loop fuel st cnt).again = false := by
  induction fuel generalizing st cnt with
  | zero => omega
  | succ fuel ih =>
    rw [stage1Loop_succ]
    split
    · next h =>
      have := stage1Rule_budget h
      exact ih (by omega)
    · next h => exact eq_false_of_ne_true h

/-- Settles O21: each rule that goes on spends some of the budget, and the bound exceeds the budget. -/
theorem stageOneLoopEndsByWaiting : Obligations.StageOneLoopEndsByWaiting := by
  intro t st cnt
  unfold stage1Take
  split
  · rfl
  · exact stage1Loop_waits (ruleBudget_lt_fuel _)

/-! ### Channel frames are in the window (R214) -/

/-- The lengths R214 admits. -/
def FramesInWindow (frames : List ChannelFrame) : Prop := ∀ cf ∈ frames, 551 ≤ cf.length ∧ cf.length ≤ 599

theorem framesInWindow_nil : FramesInWindow [] := nofun

/-- An accepted token sequence is one frame in the window (R208, R211, R215). -/
theorem framesInWindow_of_accepted {ts : List Byte} (h : inAcceptWindow (tokenSum ts) = true) :
    FramesInWindow [channelBits ts] := by
  intro cf hcf
  rw [List.mem_singleton.1 hcf, channelBits_length]
  exact of_decide_eq_true h

/-- Which spans are split (R209). -/
theorem splittable_iff {s : Nat} :
    splittable s = true ↔ 2 ≤ splitCount s ∧ s ≤ 588 * splitCount s + 11 ∧ 588 * splitCount s ≤ s + 11 :=
  decide_eq_true_iff

/-- The frames of a split span are 588 bits long but the last, which takes a remainder of at most 11 bits more or less
(R209). -/
theorem framesInWindow_splitFrames {b : List Bool} (h : splittable b.length = true) :
    FramesInWindow (splitFrames b (splitCount b.length)) := by
  obtain ⟨hn, hmax, hmin⟩ := splittable_iff.1 h
  intro cf hcf
  rcases List.mem_append.1 hcf with hfull | hlast
  · obtain ⟨m, hm, rfl⟩ := List.mem_map.1 hfull
    have hm := List.mem_range.1 hm
    rw [List.length_take, List.length_drop]
    omega
  · rw [List.mem_singleton.1 hlast, List.length_drop]
    omega

/-- A rule emits frames in the window only. -/
theorem stage1Rule_frames (st : Stage1) (cnt : Counters) : FramesInWindow (stage1Rule st cnt).frames := by
  unfold stage1Rule
  split
  · unfold tvInitialSync
    split <;> exact framesInWindow_nil
  · unfold tvExpectSync
    split
    · next j _ =>
      split
      · next hwindow => exact framesInWindow_of_accepted hwindow
      split
      · exact framesInWindow_nil
      · unfold tvOvershoot
        simp only
        split
        · next hsplit =>
          rw [spanTo, ← channelBits_length] at hsplit ⊢
          exact framesInWindow_splitFrames hsplit
        · exact framesInWindow_nil
    · split <;> exact framesInWindow_nil
  · unfold tvUndershoot
    split
    · split
      · next hwindow => exact framesInWindow_of_accepted hwindow
      · exact framesInWindow_nil
    · split <;> exact framesInWindow_nil
  · exact framesInWindow_nil

theorem stage1Loop_frames (fuel : Nat) (st : Stage1) (cnt : Counters) :
    FramesInWindow (stage1Loop fuel st cnt).frames := by
  induction fuel generalizing st cnt with
  | zero => exact framesInWindow_nil
  | succ fuel ih =>
    rw [stage1Loop_succ]
    split
    · exact List.forall_mem_append.2 ⟨stage1Rule_frames st cnt, ih _ _⟩
    · exact stage1Rule_frames st cnt

theorem stage1Take_frames (t : Byte) (st : Stage1) (cnt : Counters) :
    FramesInWindow (stage1Take t st cnt).frames := by
  unfold stage1Take
  split
  · exact framesInWindow_nil
  · exact stage1Loop_frames _ _ _

theorem stage1Flush_frames (st : Stage1) (cnt : Counters) : FramesInWindow (stage1Flush st cnt).frames := by
  unfold stage1Flush
  simp only
  split
  · next h => exact framesInWindow_of_accepted h.2
  · exact framesInWindow_nil

/-- Settles O22: every rule that emits has checked the span, or splits it near multiples of 588 bits. -/
theorem channelFramesAreInTheWindow : Obligations.ChannelFramesAreInTheWindow := fun t st cnt =>
  ⟨stage1Take_frames t st cnt, stage1Flush_frames st cnt⟩

end Sys2Proof.Machine
end

section
/-! How a span ends: the next sync pattern, the undershoot probe and the search limit (R204, R207 to R213). -/

namespace Sys2Proof.Machine

/-! ### The stage loop without its bound (R205) -/

/-- Rules enough are as good as any other number of rules enough. -/
theorem stage1Loop_fuel {f g : Nat} {st : Stage1} {cnt : Counters} (hf : ruleBudget st < f) (hg : ruleBudget st < g) :
    stage1Loop f st cnt = stage1Loop g st cnt := by
  induction f generalizing g st cnt with
  | zero => omega
  | succ f ih =>
    obtain ⟨g, rfl⟩ := Nat.exists_eq_succ_of_ne_zero (Nat.ne_zero_of_lt hg)
    rw [stage1Loop_succ, stage1Loop_succ]
    split
    · next h =>
      have := stage1Rule_budget h
      rw [ih (g := g) (by omega) (by omega)]
    · rfl

/-- What the stage loop comes to. -/
def stage1Settle (st : Stage1) (cnt : Counters) : Stage1Result := stage1Loop (stage1Fuel st) st cnt

/-- A token other than 0 is appended and counted, and the loop runs (R200). -/
theorem stage1Take_of_ne_zero {t : Byte} (ht : t ≠ 0) (st : Stage1) (cnt : Counters) :
    stage1Take t st cnt = stage1Settle { st with buf := st.buf ++ [t] } (countToken t cnt) := if_neg ht

/-- A rule that waits ends the loop. -/
theorem stage1Settle_of_wait {st st' : Stage1} {cnt cnt' : Counters} {frames : List ChannelFrame}
    (h : stage1Rule st cnt = ⟨st', cnt', frames, false⟩) : stage1Settle st cnt = ⟨st', cnt', frames, false⟩ := by
  rw [stage1Settle, stage1Fuel, stage1Loop_succ, h]
  rfl

/-- After a rule that goes on, the loop runs from what it left. -/
theorem stage1Settle_of_again {st st' : Stage1} {cnt cnt' : Counters} {frames : List ChannelFrame}
    (h : stage1Rule st cnt = ⟨st', cnt', frames, true⟩) :
    stage1Settle st cnt = { stage1Settle st' cnt' with frames := frames ++ (stage1Settle st' cnt').frames } := by
  have hbudget : ruleBudget st' < ruleBudget st := by
    have := stage1Rule_budget (st := st) (cnt := cnt) (by rw [h])
    rwa [h] at this
  have hfuel := ruleBudget_lt_fuel st
  have hrest : stage1Loop (4 * st.buf.length + 4) st' cnt' = stage1Settle st' cnt' :=
    stage1Loop_fuel (by unfold stage1Fuel at hfuel; omega) (ruleBudget_lt_fuel st')
  rw [stage1Settle, stage1Fuel, stage1Loop_succ, h, if_pos rfl, hrest]

/-- A rule that goes on, and one that waits with what the first left. -/
theorem stage1Settle_of_again_of_wait {st st' : Stage1} {cnt cnt' : Counters} {frames : List ChannelFrame}
    (h : stage1Rule st cnt = ⟨st', cnt', frames, true⟩) (hwait : stage1Rule st' cnt' = ⟨st', cnt', [], false⟩) :
    stage1Settle st cnt = ⟨st', cnt', frames, false⟩ := by
  rw [stage1Settle_of_again h, stage1Settle_of_wait hwait, List.append_nil]

/-! ### Searches and sums over a part of the buffer -/

/-- A search after the first `j` tokens is one of the tokens after them. -/
theorem findSync_drop_eq_none {s : List Byte} {j start : Nat} (h : findSync s (j + start) = none) :
    findSync (s.drop j) start = none := by
  rw [findSync_eq_none_iff] at h ⊢
  intro k hk
  rw [syncAt_drop]
  exact h (j + k) (by omega)

/-- Past the end of the tokens nothing is found. -/
theorem findSync_past_end {s : List Byte} {start : Nat} (h : s.length ≤ start) : findSync s start = none := by
  rw [findSync, List.drop_eq_nil_of_le h]
  rfl

theorem tokenSum_drop_le (s : List Byte) (j : Nat) : tokenSum (s.drop j) ≤ tokenSum s := by
  have h := tokenSum_append (s.take j) (s.drop j)
  rw [List.take_append_drop] at h
  omega

/-- The span up to the pattern that closes it (R203). -/
@[simp] theorem spanTo_append (w rest : List Byte) : spanTo (w ++ rest) w.length = tokenSum w := by
  rw [spanTo, List.take_left]

/-- The second token of a pattern at the end is not pending yet (R204). -/
theorem pendingBits_append_pair (w : List Byte) : pendingBits (w ++ [0x0B#8, 0x0B#8]) = tokenSum w + 11 := by
  rw [List.append_cons, pendingBits_append, tokenSum_append, tokenSum_append]
  rfl

/-! ### Rules that wait (R206, R207, R211) -/

theorem stage1Rule_expectingSync_waits {buf : List Byte} (u : Nat) (cnt : Counters) (hnone : findSync buf 2 = none)
    (hpend : pendingBits buf ≤ 1187) :
    stage1Rule ⟨buf, .expectingSync, u⟩ cnt = ⟨⟨buf, .expectingSync, u⟩, cnt, [], false⟩ := by
  simp only [stage1Rule, tvExpectSync, hnone, if_neg (not_lt.2 hpend)]

theorem stage1Rule_handleUndershoot_waits {buf : List Byte} {u : Nat} (cnt : Counters)
    (hnone : findSync buf (u + 2) = none) (hpend : pendingBits buf ≤ 1187) :
    stage1Rule ⟨buf, .handleUndershoot, u⟩ cnt = ⟨⟨buf, .handleUndershoot, u⟩, cnt, [], false⟩ := by
  simp only [stage1Rule, tvUndershoot, hnone, if_neg (not_lt.2 hpend)]

/-- After a pattern that closed a span the next one is expected. -/
theorem stage1Rule_pair_waits (u : Nat) (cnt : Counters) :
    stage1Rule ⟨[0x0B#8, 0x0B#8], .expectingSync, u⟩ cnt =
      ⟨⟨[0x0B#8, 0x0B#8], .expectingSync, u⟩, cnt, [], false⟩ :=
  stage1Rule_expectingSync_waits u cnt (by decide) (by decide)

/-- At most a lone 11 waits for the initial sync. -/
theorem stage1Rule_initialSync_waits {held : Nat} (hheld : held ≤ 1) (u : Nat) (cnt : Counters) :
    stage1Rule ⟨List.replicate held 0x0B#8, .expectingInitialSync, u⟩ cnt =
      ⟨⟨List.replicate held 0x0B#8, .expectingInitialSync, u⟩, cnt, [], false⟩ := by
  interval_cases held
  · simp [stage1Rule, tvInitialSync, findSync, firstSync, endsInSyncToken]
  · simp [stage1Rule, tvInitialSync, findSync, firstSync, endsInSyncToken]

/-! ### The next sync pattern (R207 to R209) -/

/-- A pattern that closes a span in the window is one frame (R208). -/
theorem stage1Rule_accepts {w : List Byte} (u : Nat) (cnt : Counters)
    (hfind : findSync (w ++ [0x0B#8, 0x0B#8]) 2 = some w.length) (hmin : 551 ≤ tokenSum w) (hmax : tokenSum w ≤ 599) :
    stage1Rule ⟨w ++ [0x0B#8, 0x0B#8], .expectingSync, u⟩ cnt =
      ⟨⟨[0x0B#8, 0x0B#8], .expectingSync, u⟩,
        bump (if tokenSum w = 588 then .tvFramesExact else .tvFramesTolerated) 1 cnt, [channelBits w], true⟩ := by
  have hwindow : inAcceptWindow (tokenSum w) = true := decide_eq_true ⟨hmin, hmax⟩
  simp [stage1Rule, tvExpectSync, hfind, hwindow, tvAccept, acceptCounter]

/-- A pattern that closes a short span is probed (R207). -/
theorem stage1Rule_probes {w : List Byte} (u : Nat) (cnt : Counters)
    (hfind : findSync (w ++ [0x0B#8, 0x0B#8]) 2 = some w.length) (hshort : tokenSum w < 551) :
    stage1Rule ⟨w ++ [0x0B#8, 0x0B#8], .expectingSync, u⟩ cnt =
      ⟨⟨w ++ [0x0B#8, 0x0B#8], .handleUndershoot, w.length⟩, cnt, [], true⟩ := by
  have hwindow : inAcceptWindow (tokenSum w) = false := decide_eq_false fun h => absurd h.1 (not_le.2 hshort)
  simp [stage1Rule, tvExpectSync, hfind, hwindow, hshort]

/-- A pattern that closes a long span is handled as an overshoot (R207). -/
theorem stage1Rule_overshoots {w : List Byte} (u : Nat) (cnt : Counters)
    (hfind : findSync (w ++ [0x0B#8, 0x0B#8]) 2 = some w.length) (hlong : 599 < tokenSum w) :
    stage1Rule ⟨w ++ [0x0B#8, 0x0B#8], .expectingSync, u⟩ cnt =
      if splittable (tokenSum w) then
        ⟨⟨[0x0B#8, 0x0B#8], .expectingSync, u⟩, bump .tvFramesSplit (splitCount (tokenSum w)) cnt,
          splitFrames (channelBits w) (splitCount (tokenSum w)), true⟩
      else
        ⟨⟨[0x0B#8, 0x0B#8], .expectingSync, u⟩,
          bump .tvTokensDiscarded w.length (bump .tvOvershootDiscards 1 cnt), [], true⟩ := by
  have hwindow : inAcceptWindow (tokenSum w) = false := decide_eq_false fun h => absurd h.2 (not_le.2 hlong)
  have hnotShort : ¬ tokenSum w < 551 := by omega
  simp [stage1Rule, tvExpectSync, hfind, hwindow, hnotShort, tvOvershoot]

/-- From 1165 bits to the search limit a span is two frames (R209). -/
theorem splitCount_of_searchLimit {s : Nat} (hmin : 1165 ≤ s) (hmax : s ≤ 1187) : splitCount s = 2 := by
  unfold splitCount
  omega

/-- Up to the search limit a long span is split exactly from 1165 bits on (R209). -/
theorem splittable_of_searchLimit {s : Nat} (hlong : 599 < s) (hmax : s ≤ 1187) :
    splittable s = true ↔ 1165 ≤ s := by
  rw [splittable_iff]
  unfold splitCount
  omega

/-- A split in two is a cut at bit 588 (R209). -/
theorem splitFrames_two (b : List Bool) : splitFrames b 2 = [b.take 588, b.drop 588] := rfl

/-- The pattern that ends a span, with the loop run to its end: what `closeSpan` says of R207 to R209. -/
theorem stage1Settle_closeSpan {w : List Byte} (u : Nat) (cnt : Counters) (hlen : 2 ≤ w.length)
    (hnone : findSync (w ++ [0x0B#8]) 2 = none) (hsum : tokenSum w ≤ 1187) :
    let r := stage1Settle ⟨w ++ [0x0B#8, 0x0B#8], .expectingSync, u⟩ cnt
    (r.frames, r.st, r.cnt) = closeSpan w u cnt := by
  have hfind := findSync_append_pair hlen hnone
  unfold closeSpan
  split
  · next hshort =>
    have hwait := stage1Rule_handleUndershoot_waits (buf := w ++ [0x0B#8, 0x0B#8]) (u := w.length) cnt
      (findSync_past_end (by simp)) (by rw [pendingBits_append_pair]; omega)
    rw [stage1Settle_of_again_of_wait (stage1Rule_probes u cnt hfind hshort) hwait]
  · next hmin =>
    split
    · next hmax =>
      rw [stage1Settle_of_again_of_wait (stage1Rule_accepts u cnt hfind (not_lt.1 hmin) hmax)
        (stage1Rule_pair_waits u _)]
    · next hmax =>
      have hlong := not_le.1 hmax
      have hover := stage1Rule_overshoots u cnt hfind hlong
      have hsplittable := splittable_of_searchLimit hlong hsum
      split
      · next hfew =>
        rw [if_neg fun h => not_le.2 hfew (hsplittable.1 h)] at hover
        rw [stage1Settle_of_again_of_wait hover (stage1Rule_pair_waits u _)]
      · next hmany =>
        rw [if_pos (hsplittable.2 (not_lt.1 hmany)), splitCount_of_searchLimit (not_lt.1 hmany) hsum,
          splitFrames_two] at hover
        rw [stage1Settle_of_again_of_wait hover (stage1Rule_pair_waits u _)]

/-- A token 11 after a token 11. -/
theorem stage1Take_second_syncToken (w : List Byte) (state : TvState) (u : Nat) (cnt : Counters) :
    stage1Take 0x0B#8 ⟨w ++ [0x0B#8], state, u⟩ cnt =
      stage1Settle ⟨w ++ [0x0B#8, 0x0B#8], state, u⟩ (bump .tvTokensIn 1 cnt) := by
  rw [stage1Take_of_ne_zero (by decide), List.append_assoc]
  rfl

/-- Settles O23: the token completes the pattern, which closes the span. -/
theorem syncPatternClosesTheSpan : Obligations.SyncPatternClosesTheSpan := by
  intro w undJ cnt hsync hnone hsum
  rw [stage1Take_second_syncToken]
  exact stage1Settle_closeSpan undJ _ (firstSync_drop hsync).2 hnone hsum

/-! ### The search limit (R212) -/

/-- With no pattern found and too many bits pending, all tokens but a trailing 11 are dropped (R207, R212). -/
theorem stage1Rule_losesSync {v : List Byte} {t : Byte} (u : Nat) (cnt : Counters)
    (hnone : findSync (v ++ [t]) 2 = none) (hpend : 1187 < pendingBits (v ++ [t])) :
    let held := if t = 0x0B#8 then 1 else 0
    stage1Rule ⟨v ++ [t], .expectingSync, u⟩ cnt =
      ⟨⟨List.replicate held 0x0B#8, .expectingInitialSync, u⟩,
        bump .tvLostSync 1 (bump .tvTokensDiscarded (v.length + 1 - held) cnt), [], true⟩ := by
  by_cases ht : t = 0x0B#8
  · subst ht
    simp [stage1Rule, tvExpectSync, hnone, hpend, tvLostSync, endsInSyncToken_append]
  · simp [stage1Rule, tvExpectSync, hnone, hpend, tvLostSync, endsInSyncToken_append, ht]

/-- Lost sync, with the loop run to its end: the initial sync waits with what is left (R206). -/
theorem stage1Settle_losesSync {v : List Byte} {t : Byte} (u : Nat) (cnt : Counters)
    (hnone : findSync (v ++ [t]) 2 = none) (hpend : 1187 < pendingBits (v ++ [t])) :
    let held := if t = 0x0B#8 then 1 else 0
    stage1Settle ⟨v ++ [t], .expectingSync, u⟩ cnt =
      ⟨⟨List.replicate held 0x0B#8, .expectingInitialSync, u⟩,
        bump .tvLostSync 1 (bump .tvTokensDiscarded (v.length + 1 - held) cnt), [], false⟩ :=
  stage1Settle_of_again_of_wait (stage1Rule_losesSync u cnt hnone hpend)
    (stage1Rule_initialSync_waits (by split <;> omega) u _)

/-- Counting a token touches the two intake counters only (R200). -/
theorem cntGet_countToken {k : Counter} (hin : k ≠ .tvTokensIn) (hrange : k ≠ .tvTokensOutOfRange) (t : Byte)
    (cnt : Counters) : cntGet k (countToken t cnt) = cntGet k cnt := by
  unfold countToken
  simp only
  split
  · rw [cntGet_bump_ne hin]
  · rw [cntGet_bump_ne hrange, cntGet_bump_ne hin]

/-- Settles O25: the sync is lost, and the initial sync waits. -/
theorem searchLimitDropsToInitialSync : Obligations.SearchLimitDropsToInitialSync := by
  intro w t undJ cnt ht hnone hlimit
  have hpend : 1187 < pendingBits (w ++ [t]) := by
    rwa [pendingBits_append, mul_ite, mul_one, mul_zero]
  rw [stage1Take_of_ne_zero ht, stage1Settle_losesSync undJ _ hnone hpend]
  refine ⟨rfl, ?_, ?_, ?_⟩
  · split <;> rfl
  · simp [cntGet_countToken]
  · split <;> simp [cntGet_countToken]

/-! ### The undershoot probe (R211, R213) -/

/-- A probed boundary that merges the span into the window emits it with the false sync as data (R211). -/
theorem stage1Rule_fixesUp {w : List Byte} {j : Nat} (cnt : Counters)
    (hfind : findSync (w ++ [0x0B#8, 0x0B#8]) (j + 2) = some w.length) (hin : 551 ≤ tokenSum w ∧ tokenSum w ≤ 599) :
    stage1Rule ⟨w ++ [0x0B#8, 0x0B#8], .handleUndershoot, j⟩ cnt =
      ⟨⟨[0x0B#8, 0x0B#8], .expectingSync, j⟩, bump .tvUndershootFixups 1 cnt, [channelBits w], true⟩ := by
  have hwindow : inAcceptWindow (tokenSum w) = true := decide_eq_true hin
  simp [stage1Rule, tvUndershoot, hfind, hwindow]

/-- The short span is discarded, and the false sync is taken for a true one (R211, R213). -/
def giveUpProbe (buf : List Byte) (j : Nat) (cnt : Counters) : Stage1Result :=
  ⟨⟨buf.drop j, .expectingSync, j⟩, bump .tvTokensDiscarded j (bump .tvUndershoots 1 cnt), [], true⟩

/-- A probed boundary out of the window (R211). -/
theorem stage1Rule_discardsShortSpan {w : List Byte} {j : Nat} (cnt : Counters)
    (hfind : findSync (w ++ [0x0B#8, 0x0B#8]) (j + 2) = some w.length)
    (hout : ¬ (551 ≤ tokenSum w ∧ tokenSum w ≤ 599)) :
    stage1Rule ⟨w ++ [0x0B#8, 0x0B#8], .handleUndershoot, j⟩ cnt = giveUpProbe (w ++ [0x0B#8, 0x0B#8]) j cnt := by
  have hwindow : inAcceptWindow (tokenSum w) = false := decide_eq_false hout
  simp [stage1Rule, tvUndershoot, hfind, hwindow, giveUpProbe]

/-- The timeout of the probe (R213). -/
theorem stage1Rule_timesOut {buf : List Byte} {j : Nat} (cnt : Counters) (hnone : findSync buf (j + 2) = none)
    (hpend : 1187 < pendingBits buf) :
    stage1Rule ⟨buf, .handleUndershoot, j⟩ cnt = giveUpProbe buf j cnt := by
  simp [stage1Rule, tvUndershoot, hnone, hpend, tvUndershootTimeout, giveUpProbe]

/-- When the probe gives up, the loop runs from the false sync on. -/
theorem stage1Settle_of_giveUpProbe {buf : List Byte} {j : Nat} {cnt : Counters}
    (h : stage1Rule ⟨buf, .handleUndershoot, j⟩ cnt = giveUpProbe buf j cnt) :
    stage1Settle ⟨buf, .handleUndershoot, j⟩ cnt =
      stage1Settle ⟨buf.drop j, .expectingSync, j⟩ (bump .tvTokensDiscarded j (bump .tvUndershoots 1 cnt)) := by
  rw [stage1Settle_of_again h]
  rfl

/-- The token that completes the probed boundary (R211). -/
theorem stage1Settle_probedBoundary {w : List Byte} {j : Nat} (cnt : Counters) (hlen : j + 2 ≤ w.length)
    (hnone : findSync (w ++ [0x0B#8]) (j + 2) = none) (hsum : tokenSum w ≤ 1187) :
    let r := stage1Settle ⟨w ++ [0x0B#8, 0x0B#8], .handleUndershoot, j⟩ cnt
    (r.frames, r.st, r.cnt) =
      if 551 ≤ tokenSum w ∧ tokenSum w ≤ 599 then
        ([channelBits w], ⟨[0x0B#8, 0x0B#8], .expectingSync, j⟩, bump .tvUndershootFixups 1 cnt)
      else closeSpan (w.drop j) j (bump .tvTokensDiscarded j (bump .tvUndershoots 1 cnt)) := by
  have hfind := findSync_append_pair hlen hnone
  have hle : j ≤ w.length := by omega
  split
  · next hin =>
    rw [stage1Settle_of_again_of_wait (stage1Rule_fixesUp cnt hfind hin) (stage1Rule_pair_waits j _)]
  · next hout =>
    rw [stage1Settle_of_giveUpProbe (stage1Rule_discardsShortSpan cnt hfind hout), List.drop_append_of_le_length hle]
    refine stage1Settle_closeSpan j _ ?_ ?_ ((tokenSum_drop_le w j).trans hsum)
    · rw [List.length_drop]
      omega
    · rw [← List.drop_append_of_le_length hle]
      exact findSync_drop_eq_none hnone

/-- A token that completes no boundary: the probe waits up to the search limit, then it gives up (R211 to R213). -/
theorem stage1Settle_probedToken {w : List Byte} {j : Nat} {t : Byte} (cnt : Counters) (hlen : j + 2 ≤ w.length)
    (hnone : findSync (w ++ [t]) (j + 2) = none) :
    let held := if t = 0x0B#8 then 1 else 0
    stage1Settle ⟨w ++ [t], .handleUndershoot, j⟩ cnt =
      if pendingBits (w ++ [t]) ≤ 1187 then ⟨⟨w ++ [t], .handleUndershoot, j⟩, cnt, [], false⟩
      else if pendingBits (w.drop j ++ [t]) ≤ 1187 then
        ⟨⟨w.drop j ++ [t], .expectingSync, j⟩, bump .tvTokensDiscarded j (bump .tvUndershoots 1 cnt), [], false⟩
      else
        ⟨⟨List.replicate held 0x0B#8, .expectingInitialSync, j⟩,
          bump .tvLostSync 1 (bump .tvTokensDiscarded (w.length + 1 - held) (bump .tvUndershoots 1 cnt)), [],
          false⟩ := by
  intro held
  have hdrop : (w ++ [t]).drop j = w.drop j ++ [t] := List.drop_append_of_le_length (by omega)
  have hnoneDropped : findSync (w.drop j ++ [t]) 2 = none := hdrop ▸ findSync_drop_eq_none hnone
  split
  · next hpend => exact stage1Settle_of_wait (stage1Rule_handleUndershoot_waits cnt hnone hpend)
  · next hpend =>
    rw [stage1Settle_of_giveUpProbe (stage1Rule_timesOut cnt hnone (not_le.1 hpend)), hdrop]
    split
    · next hrest => exact stage1Settle_of_wait (stage1Rule_expectingSync_waits j _ hnoneDropped hrest)
    · next hrest =>
      have hcount : j + ((w.drop j).length + 1 - held) = w.length + 1 - held := by
        have hheld : held ≤ 1 := by unfold held; split <;> omega
        rw [List.length_drop]
        omega
      rw [stage1Settle_losesSync j _ hnoneDropped (not_le.1 hrest), bump_bump, hcount]

/-- Settles O24: a boundary is merged or classified afresh, and without one the probe waits or gives up. -/
theorem undershootProbeResolvesTheSpan : Obligations.UndershootProbeResolvesTheSpan := by
  intro w j cnt hlen
  constructor
  · intro hnone hsum
    rw [stage1Take_second_syncToken]
    exact stage1Settle_probedBoundary _ hlen hnone hsum
  · intro t ht hnone
    rw [stage1Take_of_ne_zero ht, stage1Settle_probedToken _ hlen hnone]
    simp only [pendingBits_append]
    generalize (if t = 0x0B#8 then 1 else 0) = held
    split
    · exact ⟨rfl, rfl⟩
    · split <;> exact ⟨rfl, rfl⟩

end Sys2Proof.Machine
end

section
/-! What taking a token leaves as it was: the counters of the intake, and the rest of the state, through every later
stage (R200, R206, R530). -/

namespace Sys2Proof.Machine

/-! ### The counters of the intake (R200, R531) -/

/-- The counters that only the intake of a token writes, no rule of any stage. -/
def Counter.isIntake (k : Counter) : Bool := k == .tvTokensIn || k == .tvTokensOutOfRange || k == .hostTokensRejected

/-- The counters of the intake stand in `b` as in `a`. -/
def IntakeKept (a b : Counters) : Prop := ∀ k : Counter, k.isIntake = true → cntGet k b = cntGet k a

theorem IntakeKept.refl (a : Counters) : IntakeKept a a := fun _ _ => rfl

theorem IntakeKept.trans {a b c : Counters} (h : IntakeKept a b) (h' : IntakeKept b c) : IntakeKept a c :=
  fun k hk => (h' k hk).trans (h k hk)

/-- Adding to another counter keeps them. -/
theorem IntakeKept.bump {a b : Counters} (h : IntakeKept a b) (j : Counter) (n : Nat)
    (hj : j.isIntake = false := by rfl) : IntakeKept a (bump j n b) := fun k hk => by
  rw [cntGet_bump_ne (fun e => by rw [e, hj] at hk; cases hk), h k hk]

/-! ### Stage 1 (R205 to R213) -/

theorem stage1Rule_intakeKept (st : Stage1) (cnt : Counters) : IntakeKept cnt (stage1Rule st cnt).cnt := by
  unfold stage1Rule
  split
  · unfold tvInitialSync
    split <;> exact .bump (.refl _) _ _
  · unfold tvExpectSync
    split
    · split
      · unfold tvAccept acceptCounter
        simp only
        split <;> exact .bump (.refl _) _ _
      split
      · exact .refl _
      · unfold tvOvershoot
        simp only
        split
        · exact .bump (.refl _) _ _
        · exact .bump (.bump (.refl _) _ _) _ _
    · split
      · exact .bump (.bump (.refl _) _ _) _ _
      · exact .refl _
  · unfold tvUndershoot
    split
    · split
      · exact .bump (.refl _) _ _
      · exact .bump (.bump (.refl _) _ _) _ _
    · split
      · exact .bump (.bump (.refl _) _ _) _ _
      · exact .refl _
  · exact .refl _

theorem stage1Loop_intakeKept (fuel : Nat) (st : Stage1) (cnt : Counters) :
    IntakeKept cnt (stage1Loop fuel st cnt).cnt := by
  induction fuel generalizing st cnt with
  | zero => exact .refl _
  | succ fuel ih =>
    rw [stage1Loop_succ]
    split
    · exact (stage1Rule_intakeKept st cnt).trans (ih _ _)
    · exact stage1Rule_intakeKept st cnt

/-- A token 0 is counted as discarded and does nothing else (R131, R200). -/
theorem stage1Take_zero (st : Stage1) (cnt : Counters) :
    stage1Take 0 st cnt = ⟨st, bump .tvTokensDiscarded 1 (countToken 0 cnt), [], false⟩ := rfl

/-- Of the intake's counters a token changes what R200 says before the loop, and no more. -/
theorem stage1Take_intakeKept (t : Byte) (st : Stage1) (cnt : Counters) :
    IntakeKept (countToken t cnt) (stage1Take t st cnt).cnt := by
  unfold stage1Take
  split
  · exact .bump (.refl _) _ _
  · exact stage1Loop_intakeKept _ _ _

/-! ### Stages 2 and 3 (R250, R280, R293) -/

theorem stage2Convert_intakeKept (c : Params) (cf : ChannelFrame) (cnt : Counters) :
    IntakeKept cnt (stage2Convert c cf cnt).2 := by
  refine .bump (.bump ?_ _ _) _ _
  unfold countSubcode
  split
  · exact .bump (.refl _) _ _
  · exact .refl _

theorem checkCounter_not_intake (check : QCheck) : (checkCounter check).isIntake = false := by
  unfold checkCounter
  split <;> rfl

theorem fromData_intakeKept (init : BitVec 16) (sub : List Byte) (cnt : Counters) :
    IntakeKept cnt (fromData init sub cnt).state := by
  have hcheck := (IntakeKept.refl cnt).bump _ 1 (checkCounter_not_intake (checkAndRepair init (assembleQ sub)))
  unfold fromData
  simp only
  split
  · exact hcheck
  · split
    · exact hcheck
    · exact hcheck.bump .qRejected 1
    · exact hcheck

theorem finish_intakeKept (c : Params) (frames : List F3Frame) (x : S3) :
    IntakeKept x.2 (finish c frames x).state.2 := by
  have hdata := fromData_intakeKept c.qCrcInit (frames.map subcodeByte) x.2
  unfold finish
  split
  · next h => rwa [h] at hdata
  · next h =>
    rw [h] at hdata
    simp only [Flow.state, countJump] at hdata ⊢
    split
    · exact hdata.bump _ _
    · exact hdata

theorem finishAll_intakeKept (c : Params) (pieces : List (List F3Frame)) (x : S3) :
    IntakeKept x.2 (finishAll c pieces x).state.2 := by
  induction pieces generalizing x with
  | nil => exact .refl _
  | cons fs more ih =>
    have hfirst := finish_intakeKept c fs x
    unfold finishAll
    split
    · next h => rwa [h] at hfirst
    · next y _ h =>
      rw [h] at hfirst
      have hmore := ih y
      split
      · next h' => rw [h'] at hmore; exact hfirst.trans hmore
      · next h' => rw [h'] at hmore; exact hfirst.trans hmore

/-- Finishing sections keeps the intake's counters if the rest of the rule does. -/
theorem finishThen_intakeKept (c : Params) (pieces : List (List F3Frame)) {rest : S3 → S3} (x : S3)
    (hrest : ∀ y : S3, IntakeKept y.2 (rest y).2) : IntakeKept x.2 (finishThen c pieces rest x).state.2 := by
  have hall := finishAll_intakeKept c pieces x
  unfold finishThen
  split
  · next h => rwa [h] at hall
  · next y _ h =>
    rw [h] at hall
    exact hall.trans (hrest y)

theorem f3DropSync_intakeKept (prev : Option F3Frame) (x : S3) : IntakeKept x.2 (f3DropSync prev x).2 :=
  .bump (.bump (.refl _) _ _) _ _

theorem f3CheckOverflow_intakeKept (x : S3) : IntakeKept x.2 (f3CheckOverflow x).2 := by
  unfold f3CheckOverflow
  split
  · exact f3DropSync_intakeKept _ x
  · exact .refl _

theorem f3BadBoundary_intakeKept (x : S3) : IntakeKept x.2 (f3BadBoundary x).2 := by
  unfold f3BadBoundary
  simp only
  split
  · exact f3DropSync_intakeKept none _
  · exact .refl _

/-- A boundary counted as bad (R291). -/
theorem flowThen_badBoundary_intakeKept {cnt : Counters} {r : Flow S3 (List F2Section)}
    (h : IntakeKept cnt r.state.2) : IntakeKept cnt (flowThen f3BadBoundary r).state.2 := by
  cases r with
  | ok x out => exact h.trans (f3BadBoundary_intakeKept x)
  | fatal x info => exact h

theorem f3Discard_intakeKept (a b : List F3Frame) (x : S3) : IntakeKept x.2 (f3Discard a b x).2 :=
  ((IntakeKept.refl x.2).bump .f3BoundariesDiscarded 1).trans (f3CheckOverflow_intakeKept _)

theorem f3Dispatch_intakeKept (c : Params) (a b : List F3Frame) (x : S3) :
    IntakeKept x.2 (f3Dispatch c a b x).state.2 := by
  unfold f3Dispatch
  simp only
  split
  · exact finishThen_intakeKept c _ x fun _ => .bump (.refl _) _ _
  split
  · split
    · exact flowThen_badBoundary_intakeKept (f3Discard_intakeKept a b x)
    · exact flowThen_badBoundary_intakeKept
        (finishThen_intakeKept c _ x fun _ => .bump (.bump (.refl _) _ _) _ _)
  split
  · exact flowThen_badBoundary_intakeKept (finishThen_intakeKept c _ x fun _ => .bump (.refl _) _ _)
  · exact flowThen_badBoundary_intakeKept
      (((IntakeKept.refl x.2).bump .f3FramesDiscarded _).trans
        (finishThen_intakeKept c _ (_, _) fun _ => .bump (.refl _) _ _))

theorem f3InitialSync_intakeKept (f : F3Frame) (x : S3) : IntakeKept x.2 (f3InitialSync f x).2 := by
  unfold f3InitialSync
  split
  · exact .bump (.refl _) _ _
  · exact .refl _
  · exact .refl _
  · exact .bump (.refl _) _ _

theorem stage3Take_intakeKept (c : Params) (f : F3Frame) (x : S3) :
    IntakeKept x.2 (stage3Take c f x).state.2 := by
  refine ((IntakeKept.refl x.2).bump .f3FramesIn 1).trans ?_
  unfold stage3Take
  simp only
  split
  · exact f3InitialSync_intakeKept f _
  · unfold f3ExpectSync
    split
    · exact f3Dispatch_intakeKept c _ _ _
    · exact f3CheckOverflow_intakeKept _

/-! ### Stage 4 (R330 to R344) -/

theorem settleAppend_intakeKept (sec : F2Section) (x : S4) : IntakeKept x.2 (settleAppend sec x).1.2 := by
  unfold settleAppend
  simp only
  split <;> exact .refl _

theorem f2cSettle_intakeKept (c : Params) (sec : F2Section) (x : S4) : IntakeKept x.2 (f2cSettle c sec x).1.2 := by
  unfold f2cSettle
  split
  · exact .bump (.refl _) _ _
  split
  · unfold settleMode2
    split
    · exact .bump (.refl _) _ _
    · simp only
      split
      · exact settleAppend_intakeKept _ x
      · exact .bump (.refl _) _ _
  · unfold settleTimed
    split
    · exact settleAppend_intakeKept sec x
    · split
      · exact settleAppend_intakeKept sec x
      · exact .bump (.refl _) _ _

theorem steadyInvalid_intakeKept (c : Params) (sec : F2Section) (x : S4) :
    IntakeKept x.2 (steadyInvalid c sec x).1.2 := by
  unfold steadyInvalid
  simp only
  split
  · exact .bump (.refl _) _ _
  · exact .refl _

theorem steadyTimed_intakeKept (c : Params) (watermark : BitVec 16) (l : SectionMeta) (e : Int) (sec : F2Section)
    (x : S4) : IntakeKept x.2 (steadyTimed c watermark l e sec x).state.2 := by
  unfold steadyTimed
  split
  · exact .bump (.refl _) _ _
  split
  · exact .bump (.refl _) _ _
  split
  · exact .refl _
  simp only
  split
  · exact .refl _
  · simp only [noRaise, Flow.state, steadyGap]
    split <;> exact .bump (.refl _) _ _

theorem stage4Take_intakeKept (c : Params) (watermark : BitVec 16) (sec : F2Section) (x : S4) :
    IntakeKept x.2 (stage4Take c watermark sec x).state.2 := by
  refine ((IntakeKept.refl x.2).bump .f2cSectionsIn 1).trans ?_
  unfold stage4Take
  simp only
  split
  · exact f2cSettle_intakeKept c sec _
  · unfold f2cSteady
    split
    · exact steadyInvalid_intakeKept c sec _
    · split
      · exact .refl _
      · exact steadyTimed_intakeKept c watermark _ _ _ _

/-! ### Stages 5 and 6 (R394, R453) -/

theorem circTail_intakeKept (c : Params) (c2 : Vector Cell 28) (x : S5) : IntakeKept x.2 (circTail c c2 x).2.2 := by
  unfold circTail
  simp only
  split
  · exact .refl _
  · exact .bump (.refl _) _ _

theorem circMiddle_intakeKept (c : Params) (c1 : Vector Cell 32) (x : S5) :
    IntakeKept x.2 (circMiddle c c1 x).2.2 := by
  unfold circMiddle
  simp only
  split
  · refine ((IntakeKept.refl x.2).bump _ 1 ?_).trans (circTail_intakeKept c _ _)
    unfold c2Counter
    split <;> rfl
  · exact .bump (.refl _) _ _

theorem decodeFrame_intakeKept (c : Params) (frame : F2Frame) (x : S5) :
    IntakeKept x.2 (decodeFrame c frame x).2.2 := by
  unfold decodeFrame
  simp only
  split
  · refine ((IntakeKept.refl x.2).bump _ 1 ?_).trans (circMiddle_intakeKept c _ _)
    unfold c1Counter
    split <;> rfl
  · exact .bump (.refl _) _ _

theorem decodeFrames_intakeKept (c : Params) (frames : List F2Frame) (x : S5) :
    IntakeKept x.2 (decodeFrames c frames x).2.2 := by
  induction frames generalizing x with
  | nil => exact .refl _
  | cons f more ih =>
    have hframe := decodeFrame_intakeKept c f (x.1, bump .circFramesIn 1 x.2)
    exact (((IntakeKept.refl x.2).bump .circFramesIn 1).trans hframe).trans (ih _)

theorem stage6Take_intakeKept (sec : F1Section) (cnt : Counters) : IntakeKept cnt (stage6Take sec cnt).2 := by
  unfold stage6Take
  simp only
  generalize sec.frames.map unswap = frames
  induction frames generalizing cnt with
  | nil => exact .refl _
  | cons y more ih =>
    exact (show IntakeKept cnt (tally y cnt) from .bump (.bump (.bump (.refl _) _ _) _ _) _ _).trans (ih _)

theorem outSection_intakeKept (c : Params) (sec : F2Section) (s : State) :
    IntakeKept s.cnt (outSection c sec s).cnt :=
  (((IntakeKept.refl s.cnt).bump .f2cSectionsOut 1).trans (decodeFrames_intakeKept c sec.frames (s.circ, _))).trans
    (stage6Take_intakeKept _ _)

/-! ### The later stages (R6, R575) -/

/-- What stages 2 to 6 leave of the state `s` that stage 1 handed them: stage 1 itself, the host's registers and
waiting actions, the symbol frame, the counters of the intake, and without a halt the fatal registers. -/
structure LaterStagesKeep (s s' : State) : Prop where
  tv : s'.tv = s.tv
  watermark : s'.watermark = s.watermark
  reply : s'.reply = s.reply
  hostIn : s'.hostIn = s.hostIn
  sym : s'.sym = s.sym
  intake : IntakeKept s.cnt s'.cnt
  halt : s'.fatal = false → s'.fatalCause = s.fatalCause ∧ s'.fatalExpected = s.fatalExpected ∧
    s'.fatalActual = s.fatalActual

namespace LaterStagesKeep

theorem refl (s : State) : LaterStagesKeep s s := ⟨rfl, rfl, rfl, rfl, rfl, .refl _, fun _ => ⟨rfl, rfl, rfl⟩⟩

variable {s₀ s : State}

theorem outSection (h : LaterStagesKeep s₀ s) (c : Params) (sec : F2Section) :
    LaterStagesKeep s₀ (outSection c sec s) :=
  { h with intake := h.intake.trans (outSection_intakeKept c sec s) }

theorem runStage4 (h : LaterStagesKeep s₀ s) (c : Params) (sec : F2Section) :
    LaterStagesKeep s₀ (runStage4 c sec s) := by
  have hcnt := h.intake.trans (stage4Take_intakeKept c s.watermark sec (s.f2c, s.cnt))
  unfold Machine.runStage4
  cases hr : stage4Take c s.watermark sec (s.f2c, s.cnt) with
  | ok x secs =>
    rw [hr] at hcnt
    exact runAll_keeps (G := fun _ => True) (fun y t _ ht => ht.outSection c y) (fun _ _ => trivial)
      { h with intake := hcnt }
  | fatal x info =>
    rw [hr] at hcnt
    exact { h with intake := hcnt, halt := nofun }

theorem runStage3 (h : LaterStagesKeep s₀ s) (c : Params) (f : F3Frame) :
    LaterStagesKeep s₀ (runStage3 c f s) := by
  have hcnt := h.intake.trans (stage3Take_intakeKept c f (s.f3, s.cnt))
  unfold Machine.runStage3
  cases hr : stage3Take c f (s.f3, s.cnt) with
  | ok x secs =>
    rw [hr] at hcnt
    exact runAll_keeps (G := fun _ => True) (fun y t _ ht => ht.runStage4 c y) (fun _ _ => trivial)
      { h with intake := hcnt }
  | fatal x info =>
    rw [hr] at hcnt
    exact { h with intake := hcnt, halt := nofun }

theorem runStage2 (h : LaterStagesKeep s₀ s) (c : Params) (cf : ChannelFrame) :
    LaterStagesKeep s₀ (runStage2 c cf s) :=
  have hcnt := h.intake.trans (stage2Convert_intakeKept c cf s.cnt)
  runStage3 (s := { s with cnt := (stage2Convert c cf s.cnt).2 }) { h with intake := hcnt } c _

theorem settleStage1 (c : Params) (r : Stage1Result) (s : State) :
    LaterStagesKeep { s with tv := r.st, cnt := r.cnt } (settleStage1 c r s) :=
  runAll_keeps (G := fun _ => True) (fun cf _ _ ht => ht.runStage2 c cf) (fun _ _ => trivial) (.refl _)

end LaterStagesKeep

/-! ### A token (R200, R530) -/

/-- Every row that has a token pushes it (R186, R530). -/
theorem exec_of_tokenOf {i : Instr} {t : Byte} (h : tokenOf i = some t) (s : State) :
    exec i s = .next (pushToken Config.machine t s) := by
  cases i <;> cases h <;> rfl

/-- Without the halt a token goes to stage 1, and its frames to the later stages (R530). -/
theorem pushToken_of_running (c : Params) (t : Byte) {s : State} (h : s.fatal = false) :
    pushToken c t s = settleStage1 c (stage1Take t s.tv s.cnt) s := by
  rw [pushToken, if_neg (by rw [h]; decide)]

/-- A token that emits no frame changes stage 1 and the counters only. -/
theorem pushToken_of_no_frames (c : Params) {t : Byte} {s : State} {st : Stage1} {cnt : Counters} {again : Bool}
    (h : s.fatal = false) (htake : stage1Take t s.tv s.cnt = ⟨st, cnt, [], again⟩) :
    pushToken c t s = { s with tv := st, cnt := cnt } := by
  rw [pushToken_of_running c t h, htake]
  rfl

/-- The counters a token is counted in (R200). -/
theorem cntGet_tvTokensIn_countToken (t : Byte) (cnt : Counters) :
    cntGet .tvTokensIn (countToken t cnt) = satAdd (cntGet .tvTokensIn cnt) 1 := by
  unfold countToken
  simp only
  split <;> simp

theorem cntGet_tvTokensOutOfRange_countToken (t : Byte) (cnt : Counters) :
    cntGet .tvTokensOutOfRange (countToken t cnt) =
      if 3 ≤ t.toNat ∧ t.toNat ≤ 11 then cntGet .tvTokensOutOfRange cnt
      else satAdd (cntGet .tvTokensOutOfRange cnt) 1 := by
  unfold countToken tokenInRange
  simp only [decide_eq_true_eq]
  split <;> simp

/-- Settles O16: the token is counted before the loop, and neither the loop nor a later stage touches what the intake
holds. -/
theorem tokensAreTakenAndCounted : Obligations.TokensAreTakenAndCounted := by
  intro i t s htoken hfatal
  obtain ⟨htv, hwatermark, hreply, hhost, hsym, hlater, hhalt⟩ :=
    LaterStagesKeep.settleStage1 Config.machine (stage1Take t s.tv s.cnt) s
  rw [← pushToken_of_running Config.machine t hfatal] at htv hwatermark hreply hhost hsym hlater hhalt
  have hintake := (stage1Take_intakeKept t s.tv s.cnt).trans hlater
  refine ⟨_, exec_of_tokenOf htoken s, htv, ?_, ?_, ?_, ?_, hwatermark, hreply, hhost, hsym, hhalt⟩
  · rw [hintake .tvTokensIn rfl, cntGet_tvTokensIn_countToken]
  · rw [hintake .tvTokensOutOfRange rfl, cntGet_tvTokensOutOfRange_countToken]
  · rintro rfl
    rw [pushToken_of_no_frames Config.machine hfatal (stage1Take_zero s.tv s.cnt)]
    exact ⟨rfl, by simp [cntGet_countToken], rfl⟩
  · rw [hintake .hostTokensRejected rfl, cntGet_countToken (by decide) (by decide)]

/-! ### SYNC (R186, R206) -/

/-- A first token 11 waits for a second (R206). -/
theorem stage1Take_first_syncToken (u : Nat) (cnt : Counters) :
    stage1Take 0x0B#8 ⟨[], .expectingInitialSync, u⟩ cnt =
      ⟨⟨[0x0B#8], .expectingInitialSync, u⟩, bump .tvTokensIn 1 cnt, [], false⟩ := by
  rw [stage1Take_of_ne_zero (by decide)]
  exact stage1Settle_of_wait (stage1Rule_initialSync_waits (held := 1) (by decide) u _)

/-- The second token 11 completes the initial sync, and the next one is expected (R206). -/
theorem stage1Take_initial_pair (u : Nat) (cnt : Counters) :
    stage1Take 0x0B#8 ⟨[0x0B#8], .expectingInitialSync, u⟩ cnt =
      ⟨⟨[0x0B#8, 0x0B#8], .expectingSync, u⟩, bump .tvTokensIn 1 cnt, [], false⟩ := by
  have hrule : stage1Rule ⟨[0x0B#8, 0x0B#8], .expectingInitialSync, u⟩ (bump .tvTokensIn 1 cnt) =
      ⟨⟨[0x0B#8, 0x0B#8], .expectingSync, u⟩, bump .tvTokensIn 1 cnt, [], true⟩ := by
    simp [stage1Rule, tvInitialSync, findSync, firstSync]
  rw [stage1Take_of_ne_zero (by decide)]
  exact stage1Settle_of_again_of_wait hrule (stage1Rule_pair_waits u _)

/-- Settles O18: the first token waits, the second completes the pattern, and neither emits a frame. -/
theorem syncEntersExpectingSync : Obligations.SyncEntersExpectingSync := by
  intro s hfatal hstate hbuf
  have htv : s.tv = ⟨[], .expectingInitialSync, s.tv.undJ⟩ := by rw [← hstate, ← hbuf]
  have hfirst : pushToken Config.machine 0x0B#8 s =
      { s with tv := ⟨[0x0B#8], .expectingInitialSync, s.tv.undJ⟩, cnt := bump .tvTokensIn 1 s.cnt } := by
    refine pushToken_of_no_frames Config.machine hfatal (again := false) ?_
    rw [htv]
    exact stage1Take_first_syncToken _ _
  have hsync : exec .sync s = .next
      { s with tv := ⟨[0x0B#8, 0x0B#8], .expectingSync, s.tv.undJ⟩, cnt := bump .tvTokensIn 2 s.cnt } := by
    refine congrArg Host.Outcome.next ?_
    rw [hfirst]
    refine (pushToken_of_no_frames Config.machine (by exact hfatal) (stage1Take_initial_pair _ _)).trans ?_
    rw [bump_bump]
  exact ⟨_, hsync, rfl, fun k => cntGet_bump k .tvTokensIn 2 s.cnt, rfl⟩

end Sys2Proof.Machine
end

section
/-! Short channel frames, and the symbol rows in the subcode slot and in a data slot (R136, R251, R254, R255). -/

namespace Sys2Proof.Machine

/-! ### Short channel frames (R136, R255) -/

theorem symbolPresent_iff {len i : Nat} : symbolPresent len i = true ↔ 58 + 17 * i ≤ len := decide_eq_true_iff

theorem decodeData_of_short (c : Params) {cf : ChannelFrame} {i : Nat} (h : cf.length < 58 + 17 * i) :
    decodeData c cf i = ⟨0x00#8, true, false⟩ :=
  if_neg fun hp => absurd (symbolPresent_iff.1 hp) h.not_ge

theorem stage2Convert_cells (c : Params) (cf : ChannelFrame) (cnt : Counters) {i : Nat} (hi : i < 32) :
    (stage2Convert c cf cnt).1.cells[i] = decodeData c cf i := by
  simp [stage2Convert]

/-- Of 551 or more bits at most the last two data symbols are missing: the others end at bit 551 or before. -/
theorem missingSymbols_eq_last_two {cf : ChannelFrame} (hlen : 551 ≤ cf.length) :
    missingSymbols cf = [30, 31].countP fun i => !symbolPresent cf.length i := by
  have hfirst : (List.range 30).countP (fun i => !symbolPresent cf.length i) = 0 := by
    rw [List.countP_eq_zero]
    intro i hi
    have hi := List.mem_range.1 hi
    have hpresent : symbolPresent cf.length i = true := symbolPresent_iff.2 (by omega)
    simp [hpresent]
  have hrange : List.range 32 = List.range 30 ++ [30, 31] := rfl
  rw [missingSymbols, hrange, List.countP_append, hfirst, Nat.zero_add]

/-- Symbol 30 ends at bit 568 and symbol 31 at bit 585 (R136). -/
theorem missingSymbols_eq {cf : ChannelFrame} (hlen : 551 ≤ cf.length) :
    missingSymbols cf = if cf.length ≤ 567 then 2 else if cf.length ≤ 584 then 1 else 0 := by
  rw [missingSymbols_eq_last_two hlen]
  simp only [List.countP_cons, List.countP_nil, Bool.not_eq_true', Bool.eq_false_iff, ne_eq, symbolPresent_iff]
  split_ifs <;> omega

theorem cntGet_countSubcode {k : Counter} (h : k ≠ .efmSubcodeErrors) (d : EfmCode) (cnt : Counters) :
    cntGet k (countSubcode d cnt) = cntGet k cnt := by
  unfold countSubcode
  split
  · exact cntGet_bump_ne h _ _
  · rfl

/-- A conversion adds its missing symbols to their counter; its other two counts go elsewhere (R258). -/
theorem cntGet_efmMissingSymbols_stage2Convert (c : Params) (cf : ChannelFrame) (cnt : Counters) :
    cntGet .efmMissingSymbols (stage2Convert c cf cnt).2 =
      satAdd (cntGet .efmMissingSymbols cnt) (missingSymbols cf) := by
  rw [stage2Convert, cntGet_bump_self, cntGet_bump_ne (by decide), cntGet_countSubcode (by decide)]

/-- Settles O28: only symbols 30 and 31 can be missing, and a missing symbol is an error byte. -/
theorem shortFramesMissTheLastSymbols : Obligations.ShortFramesMissTheLastSymbols := by
  intro c cf cnt hlen
  refine ⟨?_, fun hshort => ?_, fun hshort => ?_⟩
  · rw [cntGet_efmMissingSymbols_stage2Convert, missingSymbols_eq hlen]
  · rw [stage2Convert_cells c cf cnt (by decide), decodeData_of_short c (by omega)]
  · rw [stage2Convert_cells c cf cnt (by decide), decodeData_of_short c (by omega)]

/-! ### The symbol rows (R250, entry 5) -/

/-- The code that a symbol row hands to stage 2. -/
def rowCode : Instr → Option EfmCode
  | .symSync0 _ => some .sync0
  | .symSync1 _ => some .sync1
  | .symData v => some (Config.machine.efmDecode v)
  | .symInvalid _ => some .invalid
  | _ => none

theorem rowCode_symData {v : Symbol} {d : EfmCode} (h : Config.machine.efmDecode v = d) :
    rowCode (.symData v) = some d :=
  congrArg some h

theorem exec_of_rowCode {i : Instr} {d : EfmCode} (h : rowCode i = some d) (s : State) :
    exec i s = .next (takeSymbolCode Config.machine d s) := by
  cases i <;> cases h <;> rfl

/-! ### The subcode slot (R251) -/

theorem countSubcode_of_ne_invalid {d : EfmCode} (h : d ≠ .invalid) (cnt : Counters) : countSubcode d cnt = cnt :=
  if_neg h

theorem countSubcode_invalid (cnt : Counters) : countSubcode .invalid cnt = bump .efmSubcodeErrors 1 cnt := if_pos rfl

/-- With no frame being filled a symbol row starts one. -/
theorem exec_subcodeSlot {i : Instr} {d : EfmCode} {s : State} (h : rowCode i = some d) (hfatal : s.fatal = false)
    (hsym : s.sym = none) : exec i s = .next (takeSubcodeCode d s) := by
  rw [exec_of_rowCode h, takeSymbolCode_subcode Config.machine d hfatal hsym]

/-- A subcode symbol of a code in the table changes the frame being filled only. -/
theorem takeSubcodeCode_of_ne_invalid {d : EfmCode} (h : d ≠ .invalid) (s : State) :
    takeSubcodeCode d s = { s with sym := some ⟨(subcodeType d).1, (subcodeType d).2, []⟩ } := by
  rw [takeSubcodeCode, countSubcode_of_ne_invalid h]

theorem takeSubcodeCode_invalid (s : State) :
    takeSubcodeCode .invalid s =
      { s with sym := some ⟨.subcode 0x00#8, true, []⟩, cnt := bump .efmSubcodeErrors 1 s.cnt } := by
  rw [takeSubcodeCode, countSubcode_invalid, subcodeType]

/-- Settles O30: each row starts a frame with the code it hands to stage 2. -/
theorem subcodeSymbolsSetTheFrameType : Obligations.SubcodeSymbolsSetTheFrameType := by
  intro v s hfatal hsym
  refine ⟨?_, ?_, fun b hclass => ?_, ?_⟩
  · rw [exec_subcodeSlot rfl hfatal hsym, takeSubcodeCode_of_ne_invalid (by decide), subcodeType]
  · rw [exec_subcodeSlot rfl hfatal hsym, takeSubcodeCode_of_ne_invalid (by decide), subcodeType]
  · rw [exec_subcodeSlot (rowCode_symData hclass) hfatal hsym, takeSubcodeCode_of_ne_invalid (by simp), subcodeType]
  · rw [exec_subcodeSlot rfl hfatal hsym, takeSubcodeCode_invalid]

/-! ### A data slot (R254) -/

/-- With a frame being filled a symbol row fills its next cell, and the 32nd hands the frame to stage 3. -/
theorem exec_dataSlot {i : Instr} {d : EfmCode} {p : PartialFrame} {s : State} (h : rowCode i = some d)
    (hfatal : s.fatal = false) (hsym : s.sym = some p) :
    exec i s = .next
      (if p.cells.length < 31 then
        { s with sym := some { p with cells := p.cells ++ [dataCell d] }, cnt := countDataSymbol d s.cnt }
      else runStage3 Config.machine (frameOfCells { p with cells := p.cells ++ [dataCell d] })
        { s with sym := none, cnt := countDataSymbol d s.cnt }) := by
  have hroom : (p.cells ++ [dataCell d]).length < 32 ↔ p.cells.length < 31 := by
    rw [List.length_append, List.length_singleton]
    omega
  rw [exec_of_rowCode h, takeSymbolCode_data Config.machine d hfatal hsym]
  simp only [takeDataCode, hroom]

/-- Settles O31: a row of a data byte stores it unflagged, each other row stores an error byte and counts it. -/
theorem dataSymbolsFillTheFrame : Obligations.DataSymbolsFillTheFrame := by
  intro v i cell cnt' p s hfatal hsym _ hrow
  have hcode : ∃ d, rowCode i = some d ∧ dataCell d = cell ∧ countDataSymbol d s.cnt = cnt' := by
    obtain ⟨b, hclass, rfl, rfl, rfl⟩ | ⟨hi, rfl, rfl⟩ := hrow
    · exact ⟨.byte b, rowCode_symData hclass, rfl, rfl⟩
    · obtain rfl | rfl | rfl := hi
      · exact ⟨.sync0, rfl, rfl, rfl⟩
      · exact ⟨.sync1, rfl, rfl, rfl⟩
      · exact ⟨.invalid, rfl, rfl, rfl⟩
  obtain ⟨d, hcode, rfl, rfl⟩ := hcode
  exact exec_dataSlot hcode hfatal hsym

end Sys2Proof.Machine
end

section
/-! Stage 3 at a boundary of the wrong length: where the pads stand, that a split loses no frame, and how the third such
boundary in a row loses sync (R284 to R292). -/

namespace Sys2Proof.Machine

/-! ### Pads (R287, R288) -/

/-- As long as the frames last, the first `g` even places are error frames; before any other place stand as many of them
as there are even places before it, at most `g` (R287). -/
theorem interleavePads_getElem? {g : Nat} {rest : List F3Frame} (hg : g ≤ rest.length) (y : Nat) :
    (interleavePads g rest)[y]? =
      if y % 2 = 0 ∧ y / 2 < g then some errorFrame else rest[y - min g ((y + 1) / 2)]? := by
  induction g generalizing rest y with
  | zero => simp [interleavePads]
  | succ g ih =>
    cases rest with
    | nil => cases hg
    | cons f rest =>
      match y with
      | 0 => simp [interleavePads]
      | 1 => simp [interleavePads]
      | y + 2 =>
        have hplace : y + 2 - min (g + 1) ((y + 2 + 1) / 2) = y - min g ((y + 1) / 2) + 1 := by omega
        have hpad : ((y + 2) % 2 = 0 ∧ (y + 2) / 2 < g + 1) ↔ (y % 2 = 0 ∧ y / 2 < g) := by omega
        rw [interleavePads, List.getElem?_cons_succ, List.getElem?_cons_succ, ih (Nat.le_of_succ_le_succ hg), hplace,
          List.getElem?_cons_succ]
        simp only [hpad]

/-- The first four frames of a padded section are received ones (R287). -/
theorem padSection_getElem?_of_lt {a : List F3Frame} {x : Nat} (hx : x < 4) (ha : 4 ≤ a.length) :
    (padSection a)[x]? = a[x]? := by
  rw [padSection, List.getElem?_append_left (by rw [List.length_take]; exact lt_min hx (by omega)),
    List.getElem?_take_of_lt hx]

/-- From the fifth place on the pads alternate with the received frames (R287). -/
theorem padSection_getElem?_of_le {a : List F3Frame} {x : Nat} (hx : 4 ≤ x) (ha : 4 ≤ a.length) :
    (padSection a)[x]? = (interleavePads (98 - a.length) (a.drop 4))[x - 4]? := by
  have htake : (a.take f3PadOffset).length = 4 := List.length_take_of_le ha
  rw [padSection, List.getElem?_append_right (by rw [htake]; exact hx), htake]

/-- Settles O32: the first four places by `take`, the others by the places of the alternating pads. -/
theorem padsStandAtTheirIndices : Obligations.PadsStandAtTheirIndices := by
  intro a hlo hhi
  refine ⟨padSection_length hlo (by omega), fun x _ => ?_⟩
  rcases Nat.lt_or_ge x 4 with hx | hx
  · have hplace : x - min (98 - a.length) ((x - 3) / 2) = x := by omega
    rw [padSection_getElem?_of_lt hx (by omega), if_neg (by omega), hplace]
  · have hroom : 98 - a.length ≤ (a.drop 4).length := by rw [List.length_drop]; omega
    have hpad : ((x - 4) % 2 = 0 ∧ (x - 4) / 2 < 98 - a.length) ↔
        (4 ≤ x ∧ x % 2 = 0 ∧ (x - 4) / 2 < 98 - a.length) := by omega
    have hplace : 4 + (x - 4 - min (98 - a.length) ((x - 4 + 1) / 2)) =
        x - min (98 - a.length) ((x - 3) / 2) := by omega
    rw [padSection_getElem?_of_le hx (by omega), interleavePads_getElem? hroom, List.getElem?_drop, hplace]
    simp only [hpad]
    rfl

/-! ### Splitting (R289) -/

/-- The first `k` pieces of 98 frames join to the first `98 * k` frames. -/
theorem flatten_pieces (a : List F3Frame) (k : Nat) :
    ((List.range k).map fun r => (a.drop (98 * r)).take 98).flatten = a.take (98 * k) := by
  induction k with
  | zero => rfl
  | succ k ih =>
    rw [List.range_succ, List.map_append, List.flatten_append, ih, Nat.mul_succ, List.take_add, List.map_singleton,
      List.flatten_singleton]

/-- Settles O33: all the pieces join to all the frames. -/
theorem splitSectionsLoseNoFrame : Obligations.SplitSectionsLoseNoFrame := by
  intro a hlen
  refine ⟨?_, fun _ => length_of_mem_splitSections⟩
  rw [splitSections, flatten_pieces, Nat.mul_div_cancel' (Nat.dvd_of_mod_eq_zero hlen), List.take_length]

/-! ### The counters that finishing a section writes (R293, R294, R474, R475, R480) -/

/-- The counters of the subcode decoder and of the jump check. -/
def Counter.isSubcode (k : Counter) : Bool :=
  k == .qCrcOk || k == .qRepaired || k == .qCrcFail || k == .qRejected || k == .qJumpInvalidated

/-- Adding to a counter of the subcode decoder leaves the others. -/
theorem cntGet_bump_subcode {j k : Counter} (hk : k.isSubcode = false) (hj : j.isSubcode = true) (n : Nat)
    (cnt : Counters) : cntGet k (bump j n cnt) = cntGet k cnt :=
  cntGet_bump_ne (fun e => by rw [e, hj] at hk; cases hk) n cnt

theorem checkCounter_isSubcode (check : QCheck) : (checkCounter check).isSubcode = true := by
  unfold checkCounter
  split <;> rfl

section

variable {k : Counter} (hk : k.isSubcode = false)
include hk

theorem cntGet_fromData (init : BitVec 16) (sub : List Byte) (cnt : Counters) :
    cntGet k (fromData init sub cnt).state = cntGet k cnt := by
  have hcheck := cntGet_bump_subcode hk (checkCounter_isSubcode (checkAndRepair init (assembleQ sub))) 1 cnt
  unfold fromData
  simp only
  split
  · exact hcheck
  · split
    · exact hcheck
    · exact (cntGet_bump_subcode hk rfl 1 _).trans hcheck
    · exact hcheck

theorem cntGet_countJump (lastAbs : Option Word) (m : SectionMeta) (cnt : Counters) :
    cntGet k (countJump lastAbs m cnt) = cntGet k cnt := by
  unfold countJump
  split
  · exact cntGet_bump_subcode hk rfl 1 cnt
  · rfl

theorem cntGet_finish (c : Params) (frames : List F3Frame) (x : S3) :
    cntGet k (finish c frames x).state.2 = cntGet k x.2 := by
  have hdata := cntGet_fromData hk c.qCrcInit (frames.map subcodeByte) x.2
  unfold finish
  split
  · next h => rwa [h] at hdata
  · next h =>
    rw [h] at hdata
    exact (cntGet_countJump hk _ _ _).trans hdata

/-- Finishing sections writes the counters of the subcode decoder and of the jump check only. -/
theorem cntGet_finishAll (c : Params) (pieces : List (List F3Frame)) (x : S3) :
    cntGet k (finishAll c pieces x).state.2 = cntGet k x.2 := by
  induction pieces generalizing x with
  | nil => rfl
  | cons fs more ih =>
    have hfirst := cntGet_finish hk c fs x
    unfold finishAll
    split
    · next h => rwa [h] at hfirst
    · next y _ h =>
      rw [h] at hfirst
      have hmore := ih y
      split
      · next h' => rw [h'] at hmore; exact hmore.trans hfirst
      · next h' => rw [h'] at hmore; exact hmore.trans hfirst

end

/-! ### When finishing sections halts (R289, R479) -/

/-- Finishing sections raises the halt exactly if one of them is of Q-mode 3. -/
theorem finishAll_fatal_iff {c : Params} {pieces : List (List F3Frame)} {x : S3} :
    (∃ y info, finishAll c pieces x = .fatal y info) ↔ pieces.any (isMode3Section c) = true := by
  induction pieces generalizing x with
  | nil => simp [finishAll]
  | cons fs more ih =>
    rw [List.any_cons, Bool.or_eq_true]
    cases h : isMode3Section c fs with
    | true =>
      obtain ⟨cnt, he⟩ := finish_of_mode3 x h
      simp [finishAll, he]
    | false =>
      obtain ⟨cnt, m, he⟩ := finish_of_not_mode3 x h
      simp only [finishAll, he, Bool.false_eq_true, false_or]
      rw [← ih]
      cases finishAll c more _ <;> simp

/-- With a section of Q-mode 3 among them, the halt is raised; only `s3_last_abs` and the counters of the subcode
decoder may have changed. -/
theorem finishThen_of_mode3 {c : Params} {pieces : List (List F3Frame)} (rest : S3 → S3) (x : S3)
    (h : pieces.any (isMode3Section c) = true) :
    ∃ lastAbs cnt,
      finishThen c pieces rest x = .fatal ({ x.1 with lastAbs := lastAbs }, cnt) ⟨.unsupportedQMode3, 0, 0⟩ ∧
      ∀ k : Counter, k.isSubcode = false → cntGet k cnt = cntGet k x.2 := by
  obtain ⟨y, info, hfatal⟩ := finishAll_fatal_iff.2 h
  rcases finishAll_spec c pieces x with ⟨cnt, secs, he, -⟩ | ⟨lastAbs, cnt, he⟩
  · cases he.symm.trans hfatal
  · refine ⟨lastAbs, cnt, by rw [finishThen, he], ?_⟩
    intro k hk
    rw [← cntGet_finishAll hk c pieces x, Flow.state_of_fatal he]

/-- With none, all sections are finished in order and the rest of the rule runs; `s3_last_abs` follows their records and
only the counters of the subcode decoder may have changed before it. -/
theorem finishThen_of_no_mode3 {c : Params} {pieces : List (List F3Frame)} (rest : S3 → S3) (x : S3)
    (h : ¬ pieces.any (isMode3Section c) = true) :
    ∃ cnt secs,
      finishThen c pieces rest x = .ok (rest ({ x.1 with lastAbs := lastTimeAfter secs x.1.lastAbs }, cnt)) secs ∧
      secs.map (fun sec => sec.frames) = (pieces.map fun fs => fs.map fun f => f.cells) ∧
      ∀ k : Counter, k.isSubcode = false → cntGet k cnt = cntGet k x.2 := by
  rcases finishAll_spec c pieces x with ⟨cnt, secs, he, hframes⟩ | ⟨lastAbs, cnt, he⟩
  · refine ⟨cnt, secs, by rw [finishThen, he], hframes, ?_⟩
    intro k hk
    rw [← cntGet_finishAll hk c pieces x, Flow.state_of_ok he]
  · exact absurd (finishAll_fatal_iff.1 ⟨_, _, he⟩) h

/-! ### A boundary of the wrong length (R284, R286, R287, R289, R290) -/

/-- How many frames before the trailing 98 an overshoot of `n` frames discards (R290). -/
def framesTrimmed (n : Nat) : Nat := if 98 < n ∧ n % 98 ≠ 0 then n - 98 else 0

/-- The accumulation after a boundary of the wrong length: the new start, behind the frames of a boundary that was
discarded (R286). -/
def heldAfterBoundary (a b : List F3Frame) : List F3Frame := if a.length < 94 then a ++ b else b

/-- What a boundary after `n` frames, not 98, counts when its sections are finished (R286, R287, R289, R290). -/
def countBoundary (n : Nat) (cnt : Counters) : Counters :=
  bump .f3OvershootTrims (if 98 < n ∧ n % 98 ≠ 0 then 1 else 0)
    (bump .f3SectionsSplit (if 98 < n ∧ n % 98 = 0 then n / 98 else 0)
      (bump .f3FramesInserted (if 94 ≤ n ∧ n < 98 then 98 - n else 0)
        (bump .f3SectionsPadded (if 94 ≤ n ∧ n < 98 then 1 else 0)
          (bump .f3BoundariesDiscarded (if n < 94 then 1 else 0) cnt))))

theorem f3CheckOverflow_of_le {x : S3} (h : x.1.acc.length ≤ 392) : f3CheckOverflow x = x := if_neg h.not_gt

/-- The four branches of the dispatch on a wrong length in one form: frames are trimmed, the boundary's sections are
finished, the accumulation starts again, and the bad boundary is counted (R284). -/
theorem f3Dispatch_of_bad (c : Params) {a b : List F3Frame} (x : S3) (ha : a.length ≠ 98) (hb : b.length ≤ 2) :
    f3Dispatch c a b x =
      flowThen f3BadBoundary
        (finishThen c (badBoundarySections a)
          (fun y => ({ y.1 with acc := heldAfterBoundary a b }, countBoundary a.length y.2))
          (x.1, bump .f3FramesDiscarded (framesTrimmed a.length) x.2)) := by
  unfold f3Dispatch badBoundarySections heldAfterBoundary countBoundary framesTrimmed
  dsimp only [f3SectionFrames, f3MaxShortfall]
  rw [if_neg ha]
  rcases Nat.lt_or_ge a.length 98 with hshort | hlong
  · rcases Nat.lt_or_ge a.length 94 with hfew | hpad
    · have hroom : (a ++ b).length ≤ 392 := by rw [List.length_append]; omega
      have hdiscard : f3Discard a b x = ({ x.1 with acc := a ++ b }, bump .f3BoundariesDiscarded 1 x.2) :=
        f3CheckOverflow_of_le hroom
      rw [if_pos hshort, if_pos (by omega), hdiscard]
      simp [finishThen, finishAll, hfew, hshort.not_gt, hfew.not_ge]
    · rw [if_pos hshort, if_neg (by omega)]
      simp [f3Pad, hpad, hpad.not_gt, hshort, hshort.not_gt]
  · have hover : 98 < a.length := by omega
    have henough : 94 ≤ a.length := by omega
    rw [if_neg hlong.not_gt]
    by_cases hmultiple : a.length % 98 = 0
    · simp [f3Split, hmultiple, hover, hover.not_gt, henough.not_gt]
    · simp [f3Trim, hmultiple, hover, hover.not_gt, henough.not_gt]

/-! ### The third bad boundary (R279, R291, R292) -/

/-- The boundaries of R279 are those the dispatch sees. -/
theorem f3Boundary_of_boundaryAt {acc a b : List F3Frame} {f : F3Frame} (h : BoundaryAt acc f a b) :
    f3Boundary acc f = some (a, b) := by
  rcases h with ⟨hf, rfl, rfl⟩ | ⟨l, hf, hl, rfl, rfl⟩
  · simp [f3Boundary, hf]
  · simp [f3Boundary, hf, hl]

/-- In `ExpectingSync` a frame that makes a boundary is counted and the boundary dispatched (R280, R282). -/
theorem stage3Take_of_boundaryAt (c : Params) {f : F3Frame} {a b : List F3Frame} {st : Stage3} (cnt : Counters)
    (hstate : st.state = .expectingSync) (h : BoundaryAt st.acc f a b) :
    stage3Take c f (st, cnt) = f3Dispatch c a b (st, bump .f3FramesIn 1 cnt) := by
  simp only [stage3Take, hstate, f3ExpectSync, f3Boundary_of_boundaryAt h]

/-- The third bad boundary in a row discards what the accumulation holds and drops to initial sync; `s3_last_abs` is
kept (R291, R292). -/
theorem f3BadBoundary_third {x : S3} (h : x.1.bad = 2) :
    f3BadBoundary x =
      (⟨.expectingInitialSync, [], none, 0, x.1.lastAbs⟩,
        bump .f3LostSync 1 (bump .f3FramesDiscarded x.1.acc.length x.2)) := by
  simp [f3BadBoundary, f3DropSync, h]

/-- The frames trimmed before the sections and those discarded with the lost sync. -/
theorem framesTrimmed_add_held (a b : List F3Frame) :
    framesTrimmed a.length + (heldAfterBoundary a b).length =
      (if a.length < 94 then a.length else if 98 < a.length ∧ a.length % 98 ≠ 0 then a.length - 98 else 0) +
        b.length := by
  unfold framesTrimmed heldAfterBoundary
  rcases Nat.lt_or_ge a.length 94 with hfew | henough
  · rw [if_neg (by omega), if_pos hfew, if_pos hfew, List.length_append, Nat.zero_add]
  · rw [if_neg henough.not_gt, if_neg henough.not_gt]

/-- Settles O34: the dispatch of a wrong length finishes the boundary's sections; a halt among them stops the rule, else
the third bad boundary drops to initial sync. -/
theorem thirdBadBoundaryLosesSync : Obligations.ThirdBadBoundaryLosesSync := by
  intro c f a b st cnt hstate hbad hboundary hlen
  have hstart := (f3Boundary_start (f3Boundary_of_boundaryAt hboundary)).2
  have htake := (stage3Take_of_boundaryAt c cnt hstate hboundary).trans (f3Dispatch_of_bad c _ hlen hstart)
  dsimp only
  split
  · next hmode3 =>
    obtain ⟨lastAbs, cnt', he, hkept⟩ := finishThen_of_mode3 _ _ hmode3
    rw [he] at htake
    refine ⟨_, htake, rfl, ?_⟩
    simp [hkept .f3LostSync rfl]
  · next hmode3 =>
    obtain ⟨cnt', secs, he, hframes, hkept⟩ := finishThen_of_no_mode3 _ _ hmode3
    rw [he, flowThen, f3BadBoundary_third (by exact hbad)] at htake
    refine ⟨_, secs, htake, rfl, hframes, ?_⟩
    rw [← framesTrimmed_add_held]
    and_intros <;> simp (disch := decide) [countBoundary, hkept]

end Sys2Proof.Machine
end

section
/-! Stage 4's answers section by section: the end of the settle phase, the corrected Q-mode 2 time, the drop, the halts,
the fill of a gap, the time slots of what is emitted, and a clean stream (R331 to R349). -/

namespace Sys2Proof.Machine

/-! ### Settle phase (R334, R335) -/

/-- A valid section of Q-mode 1 or 4 that follows the run in time, or starts it, is appended (R334, R335). -/
theorem f2cSettle_of_consecutive (c : Params) {sec : F2Section} {x : S4} (hv : sec.info.isValid = true)
    (hq : sec.info.qMode ≠ .mode2)
    (hnext : ∀ l, x.1.settle.getLast? = some l → absOf sec.info = absOf l.info + 1) :
    f2cSettle c sec x = settleAppend sec x := by
  simp only [f2cSettle, hv, hq, Bool.true_eq_false, if_false, settleTimed]
  cases hlast : x.1.settle.getLast? with
  | none => rfl
  | some l => exact if_pos (hnext l hlast)

/-- The fifth section of a run starts the steady phase and all five go out (R335). -/
theorem settleAppend_fifth (sec : F2Section) {x : S4} (h : x.1.settle.length = 4) :
    settleAppend sec x = ((⟨.steady, [], some sec.info, [], 0⟩, x.2), x.1.settle ++ [sec]) := by
  simp [settleAppend, h]

/-- A shorter run is held (R335). -/
theorem settleAppend_short (sec : F2Section) {x : S4} (h : x.1.settle.length < 4) :
    settleAppend sec x = (({ x.1 with settle := x.1.settle ++ [sec] }, x.2), []) := by
  simp [settleAppend, f2cSettleCount, h.ne]

/-- Settles O40: the section is consecutive, and the run is full with it. -/
theorem fifthConsecutiveSectionSettles : Obligations.FifthConsecutiveSectionSettles := by
  intro c w sec l st cnt hphase hlen hlast hv hq hnext
  have hconsecutive : ∀ m, st.settle.getLast? = some m → absOf sec.info = absOf m.info + 1 := by
    rw [hlast]
    rintro _ ⟨⟩
    exact hnext
  rw [stage4Take_settle c w sec cnt hphase, f2cSettle_of_consecutive c hv hq hconsecutive,
    settleAppend_fifth sec hlen]
  rfl

/-! ### The corrected Q-mode 2 time (R338) -/

/-- A section of another Q-mode keeps its time. -/
theorem correctMode2_of_ne (c : Params) (e : Int) {sec : F2Section} (h : sec.info.qMode ≠ .mode2) :
    correctMode2 c e sec = sec := if_neg h

/-- A section of Q-mode 2 takes the second of the expected time and its own remainder. -/
theorem correctMode2_of_mode2 (c : Params) (e : Int) {sec : F2Section} (h : sec.info.qMode = .mode2) :
    correctMode2 c e sec = withAbs c (e - e % 75 + absOf sec.info % 75) sec := if_pos h

@[simp] theorem correctMode2_isValid (c : Params) (e : Int) (sec : F2Section) :
    (correctMode2 c e sec).info.isValid = sec.info.isValid := by
  unfold correctMode2
  split <;> rfl

/-- A replaced time that fits is read back. -/
theorem absOf_withAbs (c : Params) {t : Int} (sec : F2Section) (h : -2147483648 ≤ t) (h' : t < 2147483648) :
    absOf (withAbs c t sec).info = t := storeTime_toInt c h h'

/-- Settles O41: the corrected time is at most 74 frames past the start of a second that begins by the expected time,
so it fits. -/
theorem modeTwoTakesTheExpectedSecond : Obligations.ModeTwoTakesTheExpectedSecond := by
  intro c e sec hlo hhi
  refine ⟨fun hq => ?_, correctMode2_of_ne c e⟩
  have htime : absOf (correctMode2 c e sec).info = e - e % 75 + absOf sec.info % 75 := by
    rw [correctMode2_of_mode2 c e hq]
    exact absOf_withAbs c sec (by omega) (by omega)
  refine ⟨htime, by omega, ?_⟩
  rw [correctMode2_of_mode2 c e hq]
  rfl

/-! ### A section out of order, and an uncorrectable gap (R341, R342) -/

/-- A valid section in the steady phase, its corrected form named and its expected time written out (R337, R338). -/
theorem stage4Take_steady_corrected (c : Params) (w : BitVec 16) {sec sec' : F2Section} {st : Stage4} (cnt : Counters)
    {l : SectionMeta} (hphase : st.phase = .steady) (hlast : st.last = some l) (hv : sec.info.isValid = true)
    (hsec : sec' = correctMode2 c (absOf l + st.dist.toNat + 1) sec) :
    stage4Take c w sec (st, cnt) =
      steadyTimed c w l (absOf l + st.dist.toNat + 1) sec' (st, bump .f2cSectionsIn 1 cnt) := by
  rw [hsec]
  exact stage4Take_steady_valid c w cnt hphase hlast hv

/-- Settles O43: the early section is neither held nor emitted. -/
theorem outOfOrderSectionIsDropped : Obligations.OutOfOrderSectionIsDropped := by
  intro c sec sec' l s hphase hlast hv hsec hearly
  rw [runStage4, stage4Take_steady_corrected c s.watermark s.cnt hphase hlast hv hsec,
    steadyTimed_early c _ l _ hearly]
  rfl

/-- Settles O42: the expected time lies between two stored times, so the fatal register holds it exactly. -/
theorem uncorrectableGapHaltsTheBlock : Obligations.UncorrectableGapHaltsTheBlock := by
  intro c sec sec' l s hphase hlast hv hsec hdist hlate
  have hl := absOf_range l
  have hs := absOf_range sec'.info
  have hlo : -2147483648 ≤ absOf l + s.f2c.dist.toNat + 1 := by omega
  have hhi : absOf l + s.f2c.dist.toNat + 1 < 2147483648 := by omega
  have hstored : storeTime c (absOf l + s.f2c.dist.toNat + 1) = BitVec.ofInt 32 (absOf l + s.f2c.dist.toNat + 1) :=
    if_pos ⟨hlo, hhi⟩
  refine ⟨_, rfl, ?_⟩
  rw [runStage4, stage4Take_steady_corrected c s.watermark s.cnt hphase hlast hv hsec,
    steadyTimed_uncorrectable c _ l hlate (by exact hdist), gapInfo, settleStage4]
  exact ⟨by rw [hstored]; rfl, storeTime_toInt c hlo hhi⟩

/-! ### The fill of a gap (R343 to R347) -/

/-- The bound of a gap, if there is one (R343). -/
theorem gapTooLarge_iff {maxGap : Option Nat} {g : Nat} :
    gapTooLarge maxGap g = true ↔ ∃ m, maxGap = some m ∧ m < g := by
  cases maxGap <;> simp [gapTooLarge]

/-- The synthetic sections of a gap of `g` sections (R344). -/
def gapFill (c : Params) (w : BitVec 16) (l : SectionMeta) (e : Int) (g : Nat) : List F2Section :=
  (List.range g).map fun (r : Nat) =>
    synthetic c (if gapIsError w g then errorKindFrame else paddingKindFrame) l (e + r)

/-- A late section within the gap bound comes out behind the fill and is the last one then (R344). -/
theorem steadyGap_eq (c : Params) (w : BitVec 16) (l : SectionMeta) (e : Int) (g : Nat) (sec : F2Section) (x : S4) :
    steadyGap c w l e g sec x =
      (({ x.1 with last := some sec.info, dist := 0 },
        bump (if g ≤ w.toNat then .f2cGapErrorSections else .f2cGapPaddingSections) g x.2),
        gapFill c w l e g ++ [sec]) := by
  simp [steadyGap, gapFill, gapIsError]

@[simp] theorem gapFill_length (c : Params) (w : BitVec 16) (l : SectionMeta) (e : Int) (g : Nat) :
    (gapFill c w l e g).length = g := by
  simp [gapFill]

/-- The sections of a fill, one by one. -/
theorem gapFill_getElem? {c : Params} {w : BitVec 16} {l : SectionMeta} {e : Int} {g r : Nat} {x : F2Section}
    (h : (gapFill c w l e g)[r]? = some x) :
    r < g ∧ x = synthetic c (if gapIsError w g then errorKindFrame else paddingKindFrame) l (e + r) := by
  have hr : r < g := by
    rw [← gapFill_length c w l e g]
    exact (List.getElem?_eq_some_iff.1 h).1
  refine ⟨hr, ?_⟩
  rw [gapFill, List.getElem?_map, List.getElem?_range hr] at h
  exact (Option.some.inj h).symm

/-- A synthetic section stands at its time (R347). -/
theorem absOf_synthetic (c : Params) (frame : F2Frame) (l : SectionMeta) {t : Int} (h : -2147483648 ≤ t)
    (h' : t < 2147483648) : absOf (synthetic c frame l t).info = t := storeTime_toInt c h h'

/-- The cells of a synthetic frame of either kind (R345, R346). -/
theorem gapFrame_cell (w : BitVec 16) (g : Nat) (p : Fin 32) :
    (if gapIsError w g then errorKindFrame else paddingKindFrame)[p] =
      if g ≤ w.toNat then ⟨0x00#8, true, false⟩
      else ⟨if 12 ≤ p.val ∧ p.val < 16 ∨ 28 ≤ p.val then 0xFF#8 else 0x00#8, false, true⟩ := by
  by_cases hkind : g ≤ w.toNat
  · simp [gapIsError, hkind, errorKindFrame]
  · simp [gapIsError, hkind, paddingKindFrame, isParity]

/-- Settles O44: the gap is `g`, and each slot of the fill lies before the stored time of the section. -/
theorem gapIsFilledOrHalts : Obligations.GapIsFilledOrHalts := by
  intro c w sec sec' l st cnt g hphase hlast hdist hv hsec hg habs
  have hl := absOf_range l
  have hrange := absOf_range sec'.info
  have hexpected : absOf l + st.dist.toNat + 1 = absOf l + 1 := by simp [hdist]
  have hgap : (absOf sec'.info - (absOf l + 1)).toNat = g := by omega
  rw [← hexpected] at hsec
  have htake := stage4Take_steady_corrected c w cnt hphase hlast hv hsec
  rw [hexpected, steadyTimed_gap c w l (by omega) hdist, hgap] at htake
  split
  · next hmax =>
    have hstored : storeTime c (absOf l + 1) = BitVec.ofInt 32 (absOf l + 1) := if_pos (by omega)
    rw [htake, if_pos (gapTooLarge_iff.2 hmax), gapInfo, hstored]
  · next hmax =>
    rw [if_neg (gapTooLarge_iff.not.2 hmax), steadyGap_eq, ← hdist] at htake
    refine ⟨_, htake, gapFill_length .., fun r x hx => ?_⟩
    obtain ⟨hr, rfl⟩ := gapFill_getElem? hx
    refine ⟨absOf_synthetic c _ l (by omega) (by omega), fun hfits => ?_, rfl, ?_, fun f hf p => ?_⟩
    · have hslot : l.relativeTime.toInt + (absOf l + 1 + r - absOf l) = l.relativeTime.toInt + 1 + r := by ring
      have hlow := BitVec.le_toInt l.relativeTime
      exact (congrArg (fun t => (storeTime c t).toInt) hslot).trans (storeTime_toInt c (by omega) hfits)
    · rw [synthetic_frames, List.length_replicate]
    · rw [synthetic_frames] at hf
      rw [List.eq_of_mem_replicate hf]
      exact gapFrame_cell w g p

/-! ### The time slots of emitted sections (R339, R344, R349) -/

/-- The sections are valid and stand in consecutive time slots from `t` on (R349). -/
def TakesSlots (t : Int) (secs : List F2Section) : Prop :=
  ∀ (k : Nat) (y : F2Section), secs[k]? = some y → absOf y.info = t + k ∧ y.info.isValid = true

/-- A valid section at the next time takes the next slot. -/
theorem TakesSlots.concat {t : Int} {secs : List F2Section} {sec : F2Section} (h : TakesSlots t secs)
    (habs : absOf sec.info = t + secs.length) (hv : sec.info.isValid = true) : TakesSlots t (secs ++ [sec]) := by
  intro k y hy
  rw [List.getElem?_append] at hy
  split at hy
  · exact h k y hy
  · obtain ⟨hk, rfl⟩ := List.getElem?_eq_some_iff.1 hy
    rw [List.length_singleton] at hk
    rw [List.getElem_singleton]
    exact ⟨by omega, hv⟩

/-- The last of `secs ++ [sec]`, by its place. -/
theorem eq_of_getElem?_concat_last {secs : List F2Section} {sec y : F2Section} {k : Nat}
    (h : (secs ++ [sec])[k]? = some y) (hk : k + 1 = (secs ++ [sec]).length) : y = sec := by
  rw [List.length_append, List.length_singleton] at hk
  obtain rfl : k = secs.length := by omega
  rw [List.getElem?_concat_length] at h
  exact (Option.some.inj h).symm

/-- The sections that fill a gap take the slots from the expected time on (R344, R347). -/
theorem gapFill_takesSlots (c : Params) (w : BitVec 16) (l : SectionMeta) {e : Int} {g : Nat}
    (hlo : -2147483648 ≤ e) (hhi : e + g < 2147483648) : TakesSlots e (gapFill c w l e g) := by
  intro r x hx
  obtain ⟨hr, rfl⟩ := gapFill_getElem? hx
  exact ⟨absOf_synthetic c _ l (by omega) (by omega), rfl⟩

/-- An interpolated record stands at its slot (R340). -/
theorem absOf_interpolated (c : Params) (l : SectionMeta) {idx : Int} (p : Bool) (h : -2147483648 ≤ absOf l + idx)
    (h' : absOf l + idx < 2147483648) : absOf (interpolated c l idx p) = absOf l + idx := storeTime_toInt c h h'

/-- The repaired sections keep the frames of the pending ones (R339). -/
theorem interpolateFrom_frames (c : Params) (l : SectionMeta) (idx : Int) (pending : List F2Section) :
    (interpolateFrom c l idx pending).map (fun y => y.frames) = pending.map fun y => y.frames := by
  induction pending generalizing idx with
  | nil => rfl
  | cons p more ih => simp [interpolateFrom, ih]

/-- The repaired sections take the slots from `idx` sections after the last valid one (R339, R340). -/
theorem interpolateFrom_takesSlots (c : Params) (l : SectionMeta) {idx : Int} {pending : List F2Section}
    (hlo : 0 ≤ idx) (hhi : absOf l + idx + pending.length < 2147483648) :
    TakesSlots (absOf l + idx) (interpolateFrom c l idx pending) := by
  intro k y hy
  have hl := absOf_range l
  have hk : k < pending.length := by
    rw [← interpolateFrom_length c l idx pending]
    exact (List.getElem?_eq_some_iff.1 hy).1
  rw [interpolateFrom_getElem?, Option.map_eq_some_iff] at hy
  obtain ⟨z, -, rfl⟩ := hy
  exact ⟨by rw [absOf_interpolated c l _ (by omega) (by omega)]; ring, rfl⟩

/-- What a valid section in the steady phase makes stage 4 emit without a halt: nothing, the pending sections and it, or
the fill of a gap and it (R339, R341, R344). -/
theorem steadyTimed_ok_cases {c : Params} {w : BitVec 16} {l : SectionMeta} {e : Int} {sec : F2Section} {x y : S4}
    {out : List F2Section} (h : steadyTimed c w l e sec x = .ok y out) :
    out = [] ∨
    (absOf sec.info = e ∧ (y, out) = steadyOnTime c l sec x) ∨
    ∃ g : Nat, absOf sec.info = e + g ∧ x.1.dist = 0 ∧ (y, out) = steadyGap c w l e g sec x := by
  rcases lt_trichotomy (absOf sec.info) e with hearly | hontime | hlate
  · rw [steadyTimed_early c w l x hearly] at h
    cases h
    exact .inl rfl
  · rw [steadyTimed_onTime c w l x hontime] at h
    cases h
    exact .inr (.inl ⟨hontime, rfl⟩)
  · by_cases hdist : x.1.dist = 0
    · rw [steadyTimed_gap c w l hlate hdist] at h
      split at h
      · cases h
      · cases h
        exact .inr (.inr ⟨_, by omega, hdist, rfl⟩)
    · rw [steadyTimed_uncorrectable c w l hlate hdist] at h
      cases h

/-- What a valid section in the steady phase makes stage 4 emit takes the slots from the first pending one on, and the
last of it is that section, which becomes the last valid one (R339, R344, R349). -/
theorem steadyTimed_emits {c : Params} {w : BitVec 16} {l : SectionMeta} {sec : F2Section} {st : Stage4}
    {cnt : Counters} {y : S4} {out : List F2Section} (hv : sec.info.isValid = true)
    (hpending : st.pending.length ≤ st.dist.toNat)
    (h : steadyTimed c w l (absOf l + st.dist.toNat + 1) sec (st, cnt) = .ok y out) :
    out = [] ∨ ∃ before, out = before ++ [sec] ∧ y.1.last = some sec.info ∧
      TakesSlots (absOf l + (st.dist.toNat - st.pending.length + 1)) (before ++ [sec]) := by
  have hl := absOf_range l
  have hsec := absOf_range sec.info
  rcases steadyTimed_ok_cases h with hnone | ⟨hontime, he⟩ | ⟨g, hgap, hdist, he⟩
  · exact .inl hnone
  · obtain ⟨rfl, rfl⟩ := Prod.mk.inj he
    refine .inr ⟨interpolateFrom c l (st.dist.toNat - st.pending.length + 1) st.pending, rfl, rfl,
      (interpolateFrom_takesSlots c l (by omega) (by omega)).concat ?_ hv⟩
    rw [interpolateFrom_length]
    omega
  · rw [steadyGap_eq] at he
    obtain ⟨rfl, rfl⟩ := Prod.mk.inj he
    have hzero : st.dist.toNat = 0 := by rw [hdist]; rfl
    have hfirst : absOf l + (st.dist.toNat - st.pending.length + 1) = absOf l + st.dist.toNat + 1 := by omega
    rw [hfirst]
    refine .inr ⟨_, rfl, rfl, (gapFill_takesSlots c w l (by omega) (by omega)).concat ?_ hv⟩
    rwa [gapFill_length]

/-- Settles O45: the slots of all that is emitted, and the repaired sections one by one. -/
theorem emittedSectionsTakeTheirSlots : Obligations.EmittedSectionsTakeTheirSlots := by
  intro c w sec sec' l st cnt hphase hlast hpending hv hsec
  have htake := stage4Take_steady_corrected c w cnt hphase hlast hv hsec
  have hl := absOf_range l
  refine ⟨fun x out hout k y hy => ?_, fun hontime => ?_⟩
  · rw [htake] at hout
    have hv' : sec'.info.isValid = true := by rwa [hsec, correctMode2_isValid]
    rcases steadyTimed_emits hv' hpending hout with rfl | ⟨before, rfl, hlast', hslots⟩
    · cases hy
    · obtain ⟨habs, hvalid⟩ := hslots k y hy
      refine ⟨by rw [habs]; ring, hvalid, fun hk => ?_⟩
      rw [eq_of_getElem?_concat_last hy hk]
      exact hlast'
  · rw [steadyTimed_onTime c w l _ hontime] at htake
    refine ⟨interpolateFrom c l (st.dist.toNat - st.pending.length + 1) st.pending, htake,
      interpolateFrom_frames .., fun k y z hy hz => ?_⟩
    have hk : k < st.pending.length := (List.getElem?_eq_some_iff.1 hz).1
    have hs := absOf_range sec'.info
    rw [interpolateFrom_getElem?, hz] at hy
    obtain rfl := Option.some.inj hy
    have hlow := BitVec.le_toInt l.relativeTime
    exact ⟨rfl, absOf_interpolated c l _ (by omega) (by omega), fun hfits => storeTime_toInt c (by omega) hfits⟩

/-! ### A clean stream (R331, R335, R339, R405) -/

/-- Stage 4 after a clean stream of the sections `secs`: they are held until the fifth, and none is pending (R335,
R339). -/
def stage4After (secs : List F2Section) : Stage4 :=
  if secs.length < 5 then ⟨.settle, secs, none, [], 0⟩
  else ⟨.steady, [], secs.getLast?.map fun sec => sec.info, [], 0⟩

/-- What has come out of stage 4 by then. -/
def emittedAfter (secs : List F2Section) : List F2Section := if secs.length < 5 then [] else secs

/-- A clean stream: valid sections of Q-mode 1 or 4 in consecutive time slots. -/
def CleanStream (t : Int) (secs : List F2Section) : Prop :=
  TakesSlots t secs ∧ ∀ sec ∈ secs, sec.info.qMode ≠ .mode2

/-- A clean stream without its last section. -/
theorem CleanStream.init {t : Int} {secs : List F2Section} {sec : F2Section} (h : CleanStream t (secs ++ [sec])) :
    CleanStream t secs := by
  obtain ⟨hslots, hmode⟩ := h
  refine ⟨fun k y hy => hslots k y ?_, fun y hy => hmode y (List.mem_append_left _ hy)⟩
  rwa [List.getElem?_append_left (List.getElem?_eq_some_iff.1 hy).1]

/-- The last section of a clean stream is valid, of Q-mode 1 or 4 and one slot after the one before it. -/
theorem CleanStream.last {t : Int} {secs : List F2Section} {sec : F2Section} (h : CleanStream t (secs ++ [sec])) :
    sec.info.isValid = true ∧ sec.info.qMode ≠ .mode2 ∧
      ∀ l, secs.getLast? = some l → absOf sec.info = absOf l.info + 1 := by
  obtain ⟨habs, hv⟩ := h.1 secs.length sec List.getElem?_concat_length
  refine ⟨hv, h.2 sec (by simp), fun l hl => ?_⟩
  have hlen := List.length_pos_of_mem (List.mem_of_getLast? hl)
  rw [List.getLast?_eq_getElem?] at hl
  obtain ⟨hslot, -⟩ := h.init.1 _ l hl
  omega

/-- On time with nothing pending, a section goes out as it is (R339). -/
theorem steadyOnTime_of_none_pending (c : Params) (l : SectionMeta) (sec : F2Section) {x : S4}
    (h : x.1.pending = []) :
    steadyOnTime c l sec x = (({ x.1 with last := some sec.info, dist := 0 }, x.2), [sec]) := by
  simp [steadyOnTime, h, interpolateFrom]

/-- Stage 4 takes the next section of a clean stream: held, the fifth of the settle phase, or on time (R335, R339). -/
theorem stage4Take_of_cleanStream (c : Params) (w : BitVec 16) {t : Int} {secs : List F2Section} {sec : F2Section}
    (cnt : Counters) (h : CleanStream t (secs ++ [sec])) :
    ∃ out, stage4Take c w sec (stage4After secs, cnt) =
        .ok (stage4After (secs ++ [sec]), bump .f2cSectionsIn 1 cnt) out ∧
      emittedAfter secs ++ out = emittedAfter (secs ++ [sec]) := by
  obtain ⟨hv, hq, hnext⟩ := h.last
  have hlen : (secs ++ [sec]).length = secs.length + 1 := List.length_append
  unfold stage4After emittedAfter
  rw [hlen]
  rcases lt_trichotomy secs.length 4 with hshort | hfour | hlong
  · rw [if_pos (by omega), if_pos (by omega), if_pos (by omega), if_pos (by omega)]
    refine ⟨[], ?_, rfl⟩
    rw [stage4Take_settle c w sec cnt rfl, f2cSettle_of_consecutive c hv hq hnext, settleAppend_short sec hshort]
    rfl
  · rw [if_pos (by omega), if_neg (by omega), if_pos (by omega), if_neg (by omega)]
    refine ⟨secs ++ [sec], ?_, rfl⟩
    rw [stage4Take_settle c w sec cnt rfl, f2cSettle_of_consecutive c hv hq hnext, settleAppend_fifth sec hfour,
      List.getLast?_concat]
    rfl
  · rw [if_neg (by omega), if_neg (by omega), if_neg (by omega), if_neg (by omega)]
    refine ⟨[sec], ?_, rfl⟩
    have hne : secs ≠ [] := List.ne_nil_of_length_pos (by omega)
    obtain ⟨l, hl⟩ := Option.isSome_iff_exists.1 (List.getLast?_isSome.2 hne)
    have hontime : absOf sec.info = absOf l.info + (0 : Word).toNat + 1 := by simpa using hnext l hl
    rw [stage4Take_steady_corrected c w cnt rfl (by rw [hl]; rfl) hv (correctMode2_of_ne c _ hq).symm,
      steadyTimed_onTime c w _ _ hontime, steadyOnTime_of_none_pending c _ sec rfl, List.getLast?_concat]
    rfl

/-- All that a clean stream does from a fresh settle phase, section by section. -/
theorem runAll_runStage4_of_cleanStream (c : Params) {t : Int} {secs : List F2Section} {s : State}
    (hfatal : s.fatal = false) (hfresh : s.f2c = stage4After []) (h : CleanStream t secs) :
    ∃ (ds : List F1Section) (circ : Stage5) (cnt : Counters),
      ds.map (fun d => d.info) = (emittedAfter secs).map (fun sec => sec.info) ∧
      runAll (runStage4 c) secs s =
        { s with
          f2c := stage4After secs
          f2Out := s.f2Out ++ emittedAfter secs
          d24Out := s.d24Out ++ ds
          circ := circ
          cnt := cnt } := by
  induction secs using List.reverseRecOn with
  | nil => exact ⟨[], s.circ, s.cnt, rfl, by simp [emittedAfter, ← hfresh]⟩
  | append_singleton secs sec ih =>
    obtain ⟨ds, circ, cnt, hinfo, hrun⟩ := ih h.init
    obtain ⟨out, htake, hout⟩ := stage4Take_of_cleanStream c s.watermark cnt h
    rw [runAll_append, hrun, runAll_cons _ _ _ (by exact hfatal), runAll_nil, runStage4, htake, settleStage4]
    obtain ⟨ds', circ', cnt', hinfo', hrun'⟩ := runAll_outSection_spec c out
      (s := { s with
        f2c := stage4After (secs ++ [sec])
        f2Out := s.f2Out ++ emittedAfter secs
        d24Out := s.d24Out ++ ds
        circ := circ
        cnt := bump .f2cSectionsIn 1 cnt }) hfatal
    refine ⟨ds ++ ds', circ', cnt', by rw [← hout, List.map_append, List.map_append, hinfo, hinfo'], ?_⟩
    rw [hrun', ← hout]
    simp only [List.append_assoc]

/-- Settles O46: with five or more sections, all have come out. -/
theorem cleanStreamComesOutWhole : Obligations.CleanStreamComesOutWhole := by
  intro c secs t s hfatal hfresh hlen hclean
  have hstream : CleanStream t secs := by
    refine ⟨fun k y hy => ?_, fun y hy => ?_⟩
    · obtain ⟨hv, -, habs⟩ := hclean k y hy
      exact ⟨habs, hv⟩
    · obtain ⟨k, hk⟩ := List.getElem?_of_mem hy
      exact (hclean k y hk).2.1
  have hall : emittedAfter secs = secs := if_neg hlen.not_gt
  obtain ⟨ds, circ, cnt, hinfo, hrun⟩ := runAll_runStage4_of_cleanStream c hfatal hfresh hstream
  rw [hall] at hinfo hrun
  rw [hrun]
  exact ⟨ds, rfl, rfl, hinfo, hfatal⟩

end Sys2Proof.Machine
end

section
/-! Stage 5, the CIRC decoder: a delay line is a queue, the cascade lets frames through once its three sets are primed,
and what each Reed-Solomon pass writes back (R392 to R408). -/

namespace Sys2Proof.Machine

/-! ### The Reed-Solomon passes (R396, R399, R408) -/

/-- Settles O49, by what the codec answers. -/
theorem reedSolomonPassesWriteBack : Obligations.ReedSolomonPassesWriteBack := by
  refine ⟨fun c w p => ?_, fun c w p => ?_⟩
  · unfold c1Decode cellBytes erasures
    cases c.rsC1 (w.map fun cl => cl.data) (w.map fun cl => cl.error) with
    | none => exact afterDecode_none w p
    | some cw => exact afterDecode_some cw w p
  · unfold c2Decode cellBytes erasures
    cases c.rsC2 (w.map fun cl => cl.data) (w.map fun cl => cl.error) with
    | none => exact afterDecode_none w p
    | some cw => exact afterDecode_some cw w p

/-- The cell a pass leaves when the codec returned the word unchanged. -/
theorem afterDecode_cellBytes {n : Nat} (w : Vector Cell n) (p : Fin n) :
    (afterDecode (some (cellBytes w)) w)[p] = ⟨w[p].data, false, w[p].padded⟩ := by
  rw [afterDecode_some]
  simp [cellBytes]

/-- C1 with a codec that returns every word unchanged. -/
theorem c1Decode_of_passThrough {c : Params} (h : ∀ cw e, c.rsC1 cw e = some cw) (w : Vector Cell 32) (p : Fin 32) :
    (c1Decode c w)[p] = ⟨w[p].data, false, w[p].padded⟩ := by
  rw [c1Decode, h, afterDecode_cellBytes]

/-- C2 with a codec that returns every word unchanged. -/
theorem c2Decode_of_passThrough {c : Params} (h : ∀ cw e, c.rsC2 cw e = some cw) (w : Vector Cell 28) (p : Fin 28) :
    (c2Decode c w)[p] = ⟨w[p].data, false, w[p].padded⟩ := by
  rw [c2Decode, h, afterDecode_cellBytes]

/-! ### A delay line is a queue (R392) -/

/-- A line of the right length with the pushed cell behind it is what comes out, and behind that the next line. -/
theorem line_append_pushed {n : Nat} {len : Fin n → Nat} (longest : Nat) {d : DelaySet n} (v : Vector Cell n)
    {p : Fin n} (h : d.lines[p].length = len p) :
    d.lines[p] ++ [v[p]] = (dlOut len d v)[p] :: (dlNext len longest d v).lines[p] := by
  simp only [dlOut, dlNext, Fin.getElem_fin, Vector.getElem_ofFn, Fin.eta] at h ⊢
  rw [← h]
  cases d.lines[p.val] with
  | nil => rfl
  | cons oldest line => simp

/-- What comes out at one position, push by push, is the line and then the pushed cells, as far as there are pushes. -/
theorem dlRun_column_prefix {n : Nat} {len : Fin n → Nat} (longest : Nat) {d : DelaySet n} (vs : List (Vector Cell n))
    {p : Fin n} (h : d.lines[p].length = len p) :
    (dlRun len longest vs d).map (fun w => w[p]) <+: d.lines[p] ++ vs.map fun v => v[p] := by
  induction vs generalizing d with
  | nil => exact List.nil_prefix
  | cons v vs ih =>
    have hqueue : d.lines[p] ++ (v :: vs).map (fun v => v[p]) =
        (dlOut len d v)[p] :: ((dlNext len longest d v).lines[p] ++ vs.map fun v => v[p]) := by
      rw [List.map_cons, List.append_cons, line_append_pushed longest v h, List.cons_append]
    rw [hqueue]
    exact List.cons_prefix_cons.2 ⟨rfl, ih (dlNext_line_length len longest d v p h)⟩

/-- One output cell for each push. -/
theorem dlRun_length {n : Nat} (len : Fin n → Nat) (longest : Nat) (vs : List (Vector Cell n)) (d : DelaySet n) :
    (dlRun len longest vs d).length = vs.length := by
  induction vs generalizing d with
  | nil => rfl
  | cons v vs ih => exact congrArg (· + 1) (ih _)

/-- An output cell after the first `len p` ones is the cell pushed that many pushes before. -/
theorem cell_of_dlRun {n : Nat} {len : Fin n → Nat} {longest : Nat} {d : DelaySet n} {vs : List (Vector Cell n)}
    {p : Fin n} (h : d.lines[p].length = len p) {j : Nat} {w : Vector Cell n} (hj : len p ≤ j)
    (hw : (dlRun len longest vs d)[j]? = some w) : ∃ v, vs[j - len p]? = some v ∧ v[p] = w[p] := by
  have hout : ((dlRun len longest vs d).map fun w => w[p])[j]? = some w[p] := by rw [List.getElem?_map, hw]; rfl
  obtain ⟨rest, hcolumn⟩ := dlRun_column_prefix longest vs h
  have hin : (d.lines[p] ++ vs.map fun v => v[p])[j]? = some w[p] := by
    rw [← hcolumn, List.getElem?_append_left (List.getElem?_eq_some_iff.1 hout).1, hout]
  rwa [List.getElem?_append_right (h ▸ hj), h, List.getElem?_map, Option.map_eq_some_iff] at hin

/-- Settles O48: a line is a queue that holds its length of cells. -/
theorem delayLinesDelayByTheirLength : Obligations.DelayLinesDelayByTheirLength := by
  intro n len longest d vs hlen
  refine ⟨dlRun_length len longest vs d, fun p k v w hv hw => ?_⟩
  obtain ⟨v', hv', hcell⟩ := cell_of_dlRun (hlen p) (Nat.le_add_left _ _) hw
  rw [Nat.add_sub_cancel, hv, Option.some.injEq] at hv'
  rw [← hcell, hv']

/-! ### What a set lets through once it is ready (R393) -/

/-- The outputs of a set that go on to the next step: all but those of the pushes before it is ready. -/
def primedRun {n : Nat} (len : Fin n → Nat) (longest : Nat) (vs : List (Vector Cell n)) (d : DelaySet n) :
    List (Vector Cell n) :=
  (dlRun len longest vs d).drop (longest - d.count)

@[simp] theorem primedRun_nil {n : Nat} (len : Fin n → Nat) (longest : Nat) (d : DelaySet n) :
    primedRun len longest [] d = [] :=
  List.drop_nil

/-- A set is ready after a push exactly when as many pushes as its longest line holds came before it (R393). -/
theorem ready_dlNext {n : Nat} (len : Fin n → Nat) (longest : Nat) (d : DelaySet n) (v : Vector Cell n) :
    ready longest (dlNext len longest d v) = true ↔ longest ≤ d.count := by
  rw [ready, dlNext_count, decide_eq_true_iff]
  omega

/-- Each push brings a set one nearer to being ready. -/
theorem missing_dlNext {n : Nat} (len : Fin n → Nat) (longest : Nat) (d : DelaySet n) (v : Vector Cell n) :
    longest - (dlNext len longest d v).count = longest - d.count - 1 := by
  rw [dlNext_count]
  omega

/-- A push on a filled set goes on. -/
theorem primedRun_cons_of_filled {n : Nat} {len : Fin n → Nat} {longest : Nat} {d : DelaySet n}
    (h : longest ≤ d.count) (v : Vector Cell n) (vs : List (Vector Cell n)) :
    primedRun len longest (v :: vs) d = dlOut len d v :: primedRun len longest vs (dlNext len longest d v) := by
  rw [primedRun, primedRun, missing_dlNext, Nat.sub_eq_zero_of_le h]
  rfl

/-- A push on a set that is still filling does not go on. -/
theorem primedRun_cons_of_filling {n : Nat} {len : Fin n → Nat} {longest : Nat} {d : DelaySet n}
    (h : d.count < longest) (v : Vector Cell n) (vs : List (Vector Cell n)) :
    primedRun len longest (v :: vs) d = primedRun len longest vs (dlNext len longest d v) := by
  obtain ⟨m, hm⟩ : ∃ m, longest - d.count = m + 1 := ⟨longest - d.count - 1, by omega⟩
  rw [primedRun, primedRun, missing_dlNext, hm]
  rfl

/-- From a fresh set, output `j` at position `p` comes from push `j + longest - len p`. -/
theorem cell_of_primedRun_fresh {n : Nat} {len : Fin n → Nat} {longest : Nat} {vs : List (Vector Cell n)} {p : Fin n}
    (hp : len p ≤ longest) {j : Nat} {w : Vector Cell n}
    (hw : (primedRun len longest vs (DelaySet.fresh n len))[j]? = some w) :
    ∃ v, vs[longest + j - len p]? = some v ∧ v[p] = w[p] := by
  obtain ⟨hlines, -⟩ := delaySetInv_fresh len longest
  rw [primedRun, List.getElem?_drop] at hw
  exact cell_of_dlRun (hlines p) (by omega) hw

/-! ### The cascade as three delay-line sets in a row (R394) -/

/-- What steps 1 to 3 hand on for a list of frames. -/
def c1Stream (c : Params) (frames : List F2Frame) (d : DelaySet 32) : List (Vector Cell 28) :=
  (primedRun dl1Len dl1Max (frames.map invertParity) d).map fun w => c1Kept (c1Decode c w)

/-- What steps 4 to 6 hand on for a list of words. -/
def c2Stream (c : Params) (vs : List (Vector Cell 28)) (d : DelaySet 28) : List (Vector Cell 24) :=
  (primedRun dlMLen dlMMax vs d).map fun w => deinterleaveCells c (c2Data (c2Decode c w))

/-- The frames the cascade makes from a list of frames, without the placeholders. -/
def genuineFrames (c : Params) (frames : List F2Frame) (st : Stage5) : List F1Frame :=
  primedRun dl2Len dl2Max (c2Stream c (c1Stream c frames st.dl1) st.dlM) st.dl2

/-- How many more frames stage 5 takes before it makes a genuine one. -/
def framesToPrime (st : Stage5) : Nat :=
  (dl1Max - st.dl1.count) + (dlMMax - st.dlM.count) + (dl2Max - st.dl2.count)

/-! ### One frame through the cascade (R394, R404) -/

/-- `DL1` is still filling. -/
theorem decodeFrame_of_filling (c : Params) (f : F2Frame) {x : S5} (h : x.1.dl1.count < dl1Max) :
    decodeFrame c f x = lostFrame ({ x.1 with dl1 := dlNext dl1Len dl1Max x.1.dl1 (invertParity f) }, x.2) := by
  simp [decodeFrame, ready_dlNext, h.not_ge]

/-- `DL1` lets its output through to C1. -/
theorem decodeFrame_of_filled (c : Params) (f : F2Frame) {x : S5} (h : dl1Max ≤ x.1.dl1.count) :
    decodeFrame c f x =
      circMiddle c (c1Decode c (dlOut dl1Len x.1.dl1 (invertParity f)))
        ({ x.1 with dl1 := dlNext dl1Len dl1Max x.1.dl1 (invertParity f) },
          bump (c1Counter c (dlOut dl1Len x.1.dl1 (invertParity f))) 1 x.2) := by
  simp [decodeFrame, ready_dlNext, h]

/-- `DLM` is still filling. -/
theorem circMiddle_of_filling (c : Params) (c1 : Vector Cell 32) {x : S5} (h : x.1.dlM.count < dlMMax) :
    circMiddle c c1 x = lostFrame ({ x.1 with dlM := dlNext dlMLen dlMMax x.1.dlM (c1Kept c1) }, x.2) := by
  simp [circMiddle, ready_dlNext, h.not_ge]

/-- `DLM` lets its output through to C2. -/
theorem circMiddle_of_filled (c : Params) (c1 : Vector Cell 32) {x : S5} (h : dlMMax ≤ x.1.dlM.count) :
    circMiddle c c1 x =
      circTail c (c2Decode c (dlOut dlMLen x.1.dlM (c1Kept c1)))
        ({ x.1 with dlM := dlNext dlMLen dlMMax x.1.dlM (c1Kept c1) },
          bump (c2Counter c (dlOut dlMLen x.1.dlM (c1Kept c1))) 1 x.2) := by
  simp [circMiddle, ready_dlNext, h]

/-- `DL2` is still filling. -/
theorem circTail_of_filling (c : Params) (c2 : Vector Cell 28) {x : S5} (h : x.1.dl2.count < dl2Max) :
    circTail c c2 x =
      lostFrame ({ x.1 with dl2 := dlNext dl2Len dl2Max x.1.dl2 (deinterleaveCells c (c2Data c2)) }, x.2) := by
  simp [circTail, ready_dlNext, h.not_ge]

/-- `DL2` lets its output through. -/
theorem circTail_of_filled (c : Params) (c2 : Vector Cell 28) {x : S5} (h : dl2Max ≤ x.1.dl2.count) :
    circTail c c2 x =
      (dlOut dl2Len x.1.dl2 (deinterleaveCells c (c2Data c2)),
        ({ x.1 with dl2 := dlNext dl2Len dl2Max x.1.dl2 (deinterleaveCells c (c2Data c2)) }, x.2)) := by
  simp [circTail, ready_dlNext, h]

/-- The counter of a C1 decode is not that of the lost frames. -/
theorem circLostFrames_ne_c1Counter (c : Params) (w : Vector Cell 32) : Counter.circLostFrames ≠ c1Counter c w := by
  unfold c1Counter
  split <;> decide

/-- The counter of a C2 decode is not that of the lost frames. -/
theorem circLostFrames_ne_c2Counter (c : Params) (w : Vector Cell 28) : Counter.circLostFrames ≠ c2Counter c w := by
  unfold c2Counter
  split <;> decide

/-- A decode of stage 5 once it is primed: its answer is the next genuine frame. -/
def DecodesGenuine (c : Params) (f : F2Frame) (x : S5) : Prop :=
  framesToPrime x.1 = 0 ∧ framesToPrime (decodeFrame c f x).2.1 = 0 ∧
    cntGet .circLostFrames (decodeFrame c f x).2.2 = cntGet .circLostFrames x.2 ∧
    ∀ more, genuineFrames c (f :: more) x.1 =
      (decodeFrame c f x).1 :: genuineFrames c more (decodeFrame c f x).2.1

/-- A decode of stage 5 before it is primed: its answer is a placeholder, and one frame less is left to prime it. -/
def DecodesLost (c : Params) (f : F2Frame) (x : S5) : Prop :=
  framesToPrime x.1 = framesToPrime (decodeFrame c f x).2.1 + 1 ∧ (decodeFrame c f x).1 = placeholder ∧
    cntGet .circLostFrames (decodeFrame c f x).2.2 = satAdd (cntGet .circLostFrames x.2) 1 ∧
    ∀ more, genuineFrames c (f :: more) x.1 = genuineFrames c more (decodeFrame c f x).2.1

/-- Which of the two a decode is turns on the first set that is still filling. -/
theorem decodeFrame_cases (c : Params) (f : F2Frame) (x : S5) : DecodesGenuine c f x ∨ DecodesLost c f x := by
  have hc1 := circLostFrames_ne_c1Counter c
  have hc2 := circLostFrames_ne_c2Counter c
  unfold DecodesGenuine DecodesLost genuineFrames c1Stream c2Stream framesToPrime
  rcases Nat.lt_or_ge x.1.dl1.count dl1Max with h1 | h1
  · right
    simp only [decodeFrame_of_filling, lostFrame, cntGet_bump_self, List.map_cons, primedRun_cons_of_filling,
      missing_dlNext, h1, implies_true, and_true]
    omega
  rcases Nat.lt_or_ge x.1.dlM.count dlMMax with hM | hM
  · right
    simp only [decodeFrame_of_filled, circMiddle_of_filling, lostFrame, cntGet_bump_self, cntGet_bump_ne, hc1,
      List.map_cons, primedRun_cons_of_filled, primedRun_cons_of_filling, missing_dlNext, h1, hM, ne_eq,
      not_false_eq_true, implies_true, and_true]
    omega
  rcases Nat.lt_or_ge x.1.dl2.count dl2Max with h2 | h2
  · right
    simp only [decodeFrame_of_filled, circMiddle_of_filled, circTail_of_filling, lostFrame, cntGet_bump_self,
      cntGet_bump_ne, hc1, hc2, List.map_cons, primedRun_cons_of_filled, primedRun_cons_of_filling, missing_dlNext,
      h1, hM, h2, ne_eq, not_false_eq_true, implies_true, and_true]
    omega
  · left
    simp only [decodeFrame_of_filled, circMiddle_of_filled, circTail_of_filled, cntGet_bump_ne, hc1, hc2,
      List.map_cons, primedRun_cons_of_filled, missing_dlNext, h1, hM, h2, ne_eq, not_false_eq_true, implies_true,
      and_true]
    omega

/-! ### A run of frames from any state of stage 5 -/

/-- A run answers placeholders until stage 5 is primed, and from then on the genuine frames. -/
theorem decodeFrames_eq (c : Params) (frames : List F2Frame) (x : S5) :
    (decodeFrames c frames x).1 =
      List.replicate (min (framesToPrime x.1) frames.length) placeholder ++ genuineFrames c frames x.1 := by
  induction frames generalizing x with
  | nil => simp [decodeFrames, genuineFrames, c1Stream, c2Stream]
  | cons f more ih =>
    simp only [decodeFrames, ih]
    obtain ⟨hnow, hnext, -, hgenuine⟩ | ⟨hprime, hlost, -, hgenuine⟩ :=
      decodeFrame_cases c f (x.1, bump .circFramesIn 1 x.2)
    · simp [hnow, hnext, hgenuine]
    · simp [hprime, hlost, hgenuine, Nat.add_min_add_right, List.replicate_succ]

/-- Each frame before stage 5 is primed is counted as lost, and no other (R404). -/
theorem circLostFrames_decodeFrames (c : Params) (frames : List F2Frame) (x : S5) :
    cntGet .circLostFrames (decodeFrames c frames x).2.2 =
      satAdd (cntGet .circLostFrames x.2) (min (framesToPrime x.1) frames.length) := by
  induction frames generalizing x with
  | nil => simp [decodeFrames]
  | cons f more ih =>
    simp only [decodeFrames, ih]
    obtain ⟨hnow, hnext, hcnt, -⟩ | ⟨hprime, -, hcnt, -⟩ :=
      decodeFrame_cases c f (x.1, bump .circFramesIn 1 x.2)
    · rw [hcnt, hnext, hnow, cntGet_bump_ne (by decide), Nat.zero_min, Nat.zero_min]
    · rw [hcnt, hprime, cntGet_bump_ne (by decide), satAdd_satAdd, List.length_cons, Nat.add_min_add_right,
        Nat.add_comm 1]

/-- From a flush, 111 frames prime the three sets (R393, R406). -/
theorem framesToPrime_flush : framesToPrime stage5Flush = 111 := rfl

/-- Settles O50: 111 frames prime stage 5 after a flush. -/
theorem primingGivesExactly111Placeholders : Obligations.PrimingGivesExactly111Placeholders := by
  intro c frames cnt
  have hlen := decodeFrames_length c frames (stage5Flush, cnt)
  refine ⟨hlen, fun k y hk hy => ?_, circLostFrames_decodeFrames c frames (stage5Flush, cnt)⟩
  have hkn : k < frames.length := hlen ▸ (List.getElem?_eq_some_iff.1 hy).1
  rw [decodeFrames_eq, framesToPrime_flush, List.getElem?_append_left (by rw [List.length_replicate]; omega)] at hy
  exact List.eq_of_mem_replicate (List.mem_of_getElem? hy)

/-! ### Where a byte comes from (R407) -/

/-- The C2 position of byte `i` of a Data24 frame under the default deinterleave: R401, R402 and R451 undone. -/
def c2Source (i : Fin 24) : Fin 28 := c2DataPos (Config.deinterleaveDefault (pairedPos i))

/-- The position column of R407's table. -/
theorem c2Source_eq_r407Pos : ∀ i : Fin 24, (c2Source i).val = (r407Pos i).val := by decide

/-- The latency column of R407's table: what the lines of the byte's three positions hold. -/
theorem r407Latency_eq_sum : ∀ i : Fin 24,
    dl2Len (pairedPos i) + dlMLen (c2Source i) + dl1Len (r407Pos i) = r407Latency i := by decide

/-- No position of R407's table is one of the inverted parity positions (R391). -/
theorem r407Pos_not_parity : ∀ i : Fin 24,
    ¬ (12 ≤ (r407Pos i).val ∧ (r407Pos i).val < 16 ∨ 28 ≤ (r407Pos i).val) := by decide

/-- `DL1`'s longest line (R393). -/
theorem dl1Len_le (p : Fin 32) : dl1Len p ≤ dl1Max := Nat.le_of_lt_succ (Nat.mod_lt _ Nat.two_pos)

/-- `DLM`'s longest line (R393). -/
theorem dlMLen_le (p : Fin 28) : dlMLen p ≤ dlMMax := Nat.sub_le _ _

/-- `DL2`'s longest line (R393). -/
theorem dl2Len_le (o : Fin 24) : dl2Len o ≤ dl2Max := by
  unfold dl2Len
  split <;> decide

/-- Parity inversion leaves the other positions (R391). -/
theorem invertParity_of_not_parity (x : F2Frame) {p : Fin 32} (h : ¬ (12 ≤ p.val ∧ p.val < 16 ∨ 28 ≤ p.val)) :
    (invertParity x)[p] = x[p] := by
  simp [invertParity, h]

section

variable {c : Params} {j : Nat}

/-- Steps 1 to 3 from a flush, position by position. -/
theorem cell_of_c1Stream (hC1 : ∀ cw e, c.rsC1 cw e = some cw) {frames : List F2Frame} {v : Vector Cell 28}
    (hv : (c1Stream c frames stage5Flush.dl1)[j]? = some v) {q : Fin 28} {p : Fin 32} (hqp : q.val = p.val)
    (hp : ¬ (12 ≤ p.val ∧ p.val < 16 ∨ 28 ≤ p.val)) :
    ∃ x, frames[dl1Max + j - dl1Len p]? = some x ∧ v[q] = ⟨x[p].data, false, x[p].padded⟩ := by
  obtain ⟨w, hw, rfl⟩ := Option.map_eq_some_iff.1 (List.getElem?_map .. ▸ hv)
  obtain ⟨u, hu, hcell⟩ := cell_of_primedRun_fresh (dl1Len_le p) hw
  obtain ⟨x, hx, rfl⟩ := Option.map_eq_some_iff.1 (List.getElem?_map .. ▸ hu)
  refine ⟨x, hx, ?_⟩
  have hkept : (c1Kept (c1Decode c w))[q] = (c1Decode c w)[p] := by simp [c1Kept, hqp]
  rw [hkept, c1Decode_of_passThrough hC1, ← hcell, invertParity_of_not_parity x hp]

/-- Steps 4 to 6 from a flush, position by position. -/
theorem cell_of_c2Stream (hC2 : ∀ cw e, c.rsC2 cw e = some cw) {vs : List (Vector Cell 28)} {e : Vector Cell 24}
    (he : (c2Stream c vs stage5Flush.dlM)[j]? = some e) {o : Fin 24} {q : Fin 28}
    (hq : c2DataPos (c.deinterleave o) = q) :
    ∃ v, vs[dlMMax + j - dlMLen q]? = some v ∧ e[o] = ⟨v[q].data, false, v[q].padded⟩ := by
  obtain ⟨w, hw, rfl⟩ := Option.map_eq_some_iff.1 (List.getElem?_map .. ▸ he)
  obtain ⟨v, hv, hcell⟩ := cell_of_primedRun_fresh (dlMLen_le q) hw
  refine ⟨v, hv, ?_⟩
  have hpos : (deinterleaveCells c (c2Data (c2Decode c w)))[o] = (c2Decode c w)[q] := by
    simp [deinterleaveCells, c2Data, hq]
  rw [hpos, c2Decode_of_passThrough hC2, hcell]

/-- A byte of a genuine Data24 frame comes, with its padded flag and no error flag, from its position and latency. -/
theorem cell_of_genuineFrames (hC1 : ∀ cw e, c.rsC1 cw e = some cw) (hC2 : ∀ cw e, c.rsC2 cw e = some cw)
    (hd : c.deinterleave = Config.deinterleaveDefault) {frames : List F2Frame} {y : F1Frame}
    (hy : (genuineFrames c frames stage5Flush)[j]? = some y) (i : Fin 24) :
    ∃ x, frames[111 + j - r407Latency i]? = some x ∧
      (unswap y)[i] = ⟨x[r407Pos i].data, false, x[r407Pos i].padded⟩ := by
  have hunswap : (unswap y)[i] = y[pairedPos i] := by simp [unswap]
  have hsource : c2DataPos (c.deinterleave (pairedPos i)) = c2Source i := by rw [hd]; rfl
  obtain ⟨e, he, hye⟩ := cell_of_primedRun_fresh (dl2Len_le (pairedPos i)) hy
  obtain ⟨v, hv, hev⟩ := cell_of_c2Stream hC2 he hsource
  obtain ⟨x, hx, hvx⟩ := cell_of_c1Stream hC1 hv (c2Source_eq_r407Pos i) (r407Pos_not_parity i)
  have hindex : dl1Max + (dlMMax + (dl2Max + j - dl2Len (pairedPos i)) - dlMLen (c2Source i)) - dl1Len (r407Pos i) =
      111 + j - r407Latency i := by
    have h1 : dl1Len (r407Pos i) ≤ 1 := dl1Len_le _
    have hM : dlMLen (c2Source i) ≤ 108 := dlMLen_le _
    have h2 : dl2Len (pairedPos i) ≤ 2 := dl2Len_le _
    rw [← r407Latency_eq_sum]
    unfold dl1Max dlMMax dl2Max
    omega
  exact ⟨x, hindex ▸ hx, by rw [hunswap, ← hye, hev, hvx]⟩

end

/-- Settles O51: frame `k` is genuine frame `k - 111`. -/
theorem dataComesOutAtItsLatency : Obligations.DataComesOutAtItsLatency := by
  intro c frames cnt hC1 hC2 hd k y i x hk hy hx
  have hkn : k < frames.length := decodeFrames_length c frames _ ▸ (List.getElem?_eq_some_iff.1 hy).1
  rw [decodeFrames_eq, framesToPrime_flush, Nat.min_eq_left (by omega), List.getElem?_append_right (by simpa using hk),
    List.length_replicate] at hy
  obtain ⟨x', hx', hcell⟩ := cell_of_genuineFrames hC1 hC2 hd hy i
  rw [Nat.add_sub_cancel' hk, hx, Option.some.injEq] at hx'
  subst hx'
  exact ⟨by rw [hcell], by rw [hcell], by rw [hcell]⟩

end Sys2Proof.Machine
end

section
/-! Stage 6, F1 section to Data24 section: the byte pairs and the tallies (R450 to R455). -/

namespace Sys2Proof.Machine

/-! ### The swapped pairs (R451, R452) -/

/-- `i XOR 1` by number. -/
theorem pairedPos_val : ∀ i : Fin 24, (pairedPos i).val = i.val ^^^ 1 := by decide

/-- Two positions make a pair: each is the other's. -/
theorem pairedPos_involutive : Function.Involutive pairedPos := fun i =>
  Fin.ext (by rw [pairedPos_val, pairedPos_val, Nat.xor_xor_cancel_right])

/-- A swapped frame, cell by cell (R451, R452). -/
theorem unswap_cell (x : F1Frame) (i : Fin 24) : (unswap x)[i] = x[pairedPos i] := by simp [unswap]

/-- Swapping twice gives the frame back. -/
theorem unswap_unswap (x : F1Frame) : unswap (unswap x) = x := by
  have hcell (i : Fin 24) : (unswap (unswap x))[i] = x[i] := by
    rw [unswap_cell, unswap_cell]
    exact congrArg (fun p : Fin 24 => x[p]) (pairedPos_involutive i)
  exact Vector.ext fun i hi => hcell ⟨i, hi⟩

/-! ### What the swap keeps (R453, R455) -/

/-- A swapped frame holds the same cells, each as often: the pairing is a permutation of the 24 positions. -/
theorem unswap_perm (x : F1Frame) : (unswap x).toList.Perm x.toList := by
  have hcells (y : F1Frame) : y.toList = List.ofFn fun i => y[i] :=
    List.ext_getElem (by simp) fun _ _ _ => by rw [List.getElem_ofFn]; rfl
  have hswapped : (fun i => (unswap x)[i]) = (fun i : Fin 24 => x[i]) ∘ pairedPos_involutive.toPerm :=
    funext (unswap_cell x)
  rw [hcells (unswap x), hcells x, hswapped]
  exact Equiv.Perm.ofFn_comp_perm _ _

/-- Settles O52: the error and padded bytes are counted over the same cells. -/
theorem unswapExchangesBytePairs : Obligations.UnswapExchangesBytePairs := by
  intro x
  refine ⟨fun i j hij => ?_, unswap_unswap x, (unswap_perm x).countP_eq _, (unswap_perm x).countP_eq _⟩
  have hj : j = pairedPos i := Fin.ext (hij.trans (pairedPos_val i).symm)
  rw [hj, unswap_cell]

end Sys2Proof.Machine
end

section
/-! The Q channel: its assembly, the linearity of its CRC, and what the single-bit repair finds (R472 to R475, R486). -/

namespace Sys2Proof.Machine

/-! ### Q assembly (R472) -/

/-- Of `n` bits shifted in, the first stands highest. -/
theorem testBit_foldl_bits (bit : Nat → Bool) {n j : Nat} (hj : j < n) :
    ((List.range n).foldl (fun acc k => 2 * acc + (bit k).toNat) 0).testBit (n - 1 - j) = bit j := by
  induction n with
  | zero => cases hj
  | succ n ih =>
    rw [List.range_succ, List.foldl_append, List.foldl_cons, List.foldl_nil, Nat.add_sub_cancel, ← Nat.bit_val]
    rcases Nat.lt_or_eq_of_le (Nat.lt_succ_iff.1 hj) with hlt | rfl
    · rw [show n - j = n - 1 - j + 1 by omega, Nat.testBit_bit_succ, ih hlt]
    · rw [Nat.sub_self, Nat.testBit_bit_zero]

/-- The bits of a byte made of bits. -/
theorem getLsbD_byteOfBits (bit : Nat → Bool) {j : Nat} (hj : j < 8) :
    (byteOfBits bit).getLsbD (7 - j) = bit j := by
  rw [byteOfBits, BitVec.getLsbD_ofNat, testBit_foldl_bits bit hj, decide_eq_true (by omega), Bool.true_and]

/-- Settles O36: a byte of the assembly is made of the Q bits of eight frames. -/
theorem qBitsAreAssembledMsbFirst : Obligations.QBitsAreAssembledMsbFirst := by
  intro sub k j hj
  have hbyte : (assembleQ sub)[k] = byteOfBits fun j => (sub.getD (2 + (8 * k.val + j)) 0).getLsbD 6 := by
    simp [assembleQ]
  rw [hbyte, getLsbD_byteOfBits _ hj]

/-! ### The CRC register (R473) -/

/-- One step of the register with no bit read in: multiplication by `x` modulo the generator. -/
def crcShift (r : BitVec 16) : BitVec 16 := crcStep r false

/-- `x ^ n` modulo the generator, bit `k` of a word being the coefficient of `x ^ k`. -/
def crcPow (n : Nat) : BitVec 16 := crcShift^[n] 1#16

theorem crcShift_iterate_crcPow (m n : Nat) : crcShift^[m] (crcPow n) = crcPow (m + n) :=
  (Function.iterate_add_apply crcShift m n 1#16).symm

/-- What a step adds to the shifted register. -/
def crcFeedback (b : Bool) : BitVec 16 := if b = true then qCrcPoly else 0

theorem crcFeedback_xor : ∀ a b : Bool, crcFeedback (a ^^ b) = crcFeedback a ^^^ crcFeedback b := by decide

theorem crcStep_eq (r : BitVec 16) (x : Bool) : crcStep r x = r <<< 1 ^^^ crcFeedback (r.msb ^^ x) := by
  unfold crcStep crcFeedback
  split
  · rfl
  · exact BitVec.xor_zero.symm

theorem crcShift_eq (r : BitVec 16) : crcShift r = r <<< 1 ^^^ crcFeedback r.msb := by
  rw [crcShift, crcStep_eq, Bool.xor_false]

/-- A step is linear in the register and the bit read in. -/
theorem crcStep_xor (r d : BitVec 16) (x y : Bool) :
    crcStep (r ^^^ d) (x ^^ y) = crcStep r x ^^^ crcStep d y := by
  have hbits : ((r.msb ^^ d.msb) ^^ (x ^^ y)) = ((r.msb ^^ x) ^^ (d.msb ^^ y)) := by
    rw [Bool.xor_assoc, Bool.xor_assoc, Bool.xor_left_comm d.msb]
  rw [crcStep_eq, crcStep_eq, crcStep_eq, BitVec.msb_xor, hbits, crcFeedback_xor, BitVec.shiftLeft_xor_distrib]
  ac_rfl

/-- A difference of two registers is shifted by every further bit read in. -/
theorem crcStep_foldl_xor (r d : BitVec 16) (bits : List Bool) :
    bits.foldl crcStep (r ^^^ d) = bits.foldl crcStep r ^^^ crcShift^[bits.length] d := by
  induction bits generalizing r d with
  | nil => rfl
  | cons x bits ih =>
    have hstep : crcStep (r ^^^ d) x = crcStep r x ^^^ crcShift d := by
      rw [crcShift, ← crcStep_xor, Bool.xor_false]
    rw [List.foldl_cons, hstep, ih, List.foldl_cons, List.length_cons, Function.iterate_succ_apply]

/-- Reading in a byte is linear in the byte. -/
theorem crcStep_foldl_byteBits_xor (r : BitVec 16) (b c : Byte) :
    (byteBits (b ^^^ c)).foldl crcStep r = (byteBits b).foldl crcStep r ^^^ (byteBits c).foldl crcStep 0 := by
  have bits_xor (k : Nat) : (b ^^^ c).getLsbD (7 - k) = (b.getLsbD (7 - k) ^^ c.getLsbD (7 - k)) := BitVec.getLsbD_xor
  have hbits (ks : List Nat) (r d : BitVec 16) :
      (ks.map fun k => (b ^^^ c).getLsbD (7 - k)).foldl crcStep (r ^^^ d) =
        (ks.map fun k => b.getLsbD (7 - k)).foldl crcStep r ^^^
          (ks.map fun k => c.getLsbD (7 - k)).foldl crcStep d := by
    induction ks generalizing r d with
    | nil => rfl
    | cons k ks ih =>
      simp only [List.map_cons, List.foldl_cons]
      rw [bits_xor, crcStep_xor, ih]
  have hbyte := hbits (List.range 8) r 0
  rwa [show r ^^^ 0 = r from BitVec.xor_zero] at hbyte

/-- A byte with one bit set leaves a power of `x` in the empty register. -/
theorem crcStep_foldl_unit : ∀ j : Fin 8, (byteBits (0x80#8 >>> j.val)).foldl crcStep 0 = crcPow (23 - j.val) := by
  decide +kernel

theorem length_flatMap_byteBits (bytes : List Byte) : (bytes.flatMap byteBits).length = 8 * bytes.length := by
  induction bytes with
  | nil => rfl
  | cons b bytes ih =>
    have hbyte : (byteBits b).length = 8 := by simp [byteBits]
    rw [List.flatMap_cons, List.length_append, hbyte, ih, List.length_cons]
    omega

/-- Flipping a bit of the bytes adds to the CRC the power of `x` at that bit. -/
theorem crc_set_flip (init : BitVec 16) (bytes : List Byte) {k j : Nat} (hk : k < bytes.length) (hj : j < 8) :
    crc init (bytes.set k (bytes[k] ^^^ (0x80#8 >>> j))) =
      crc init bytes ^^^ crcPow (8 * (bytes.length - 1 - k) + (23 - j)) := by
  suffices h : ((bytes.set k (bytes[k] ^^^ (0x80#8 >>> j))).flatMap byteBits).foldl crcStep init =
      (bytes.flatMap byteBits).foldl crcStep init ^^^ crcPow (8 * (bytes.length - 1 - k) + (23 - j)) by
    rw [crc, h, crc]
    ac_rfl
  induction bytes generalizing init k with
  | nil => cases hk
  | cons b bytes ih =>
    cases k with
    | zero =>
      simp only [List.set_cons_zero, List.getElem_cons_zero, List.flatMap_cons, List.foldl_append,
        crcStep_foldl_byteBits_xor, crcStep_foldl_unit ⟨j, hj⟩, crcStep_foldl_xor, length_flatMap_byteBits,
        crcShift_iterate_crcPow, List.length_cons, Nat.add_sub_cancel, Nat.sub_zero]
    | succ k =>
      have hlen : (b :: bytes).length - 1 - (k + 1) = bytes.length - 1 - k := by
        rw [List.length_cons]; omega
      rw [hlen]
      simp only [List.set_cons_succ, List.getElem_cons_succ, List.flatMap_cons, List.foldl_append]
      exact ih _ (Nat.lt_of_succ_lt_succ hk)

/-! ### Powers of `x` (R486) -/

/-- The parity of the number of bits set. -/
def parity (r : BitVec 16) : ZMod 2 := ∑ k : Fin 16, ((r.getLsbD k).toNat : ZMod 2)

theorem parity_xor (r d : BitVec 16) : parity (r ^^^ d) = parity r + parity d := by
  unfold parity
  rw [← Finset.sum_add_distrib]
  refine Finset.sum_congr rfl fun k _ => ?_
  rw [BitVec.getLsbD_xor]
  cases r.getLsbD k <;> cases d.getLsbD k <;> decide

/-- Shifting left loses the highest bit. -/
theorem parity_shiftLeft_one (r : BitVec 16) : parity r = parity (r <<< 1) + (r.msb.toNat : ZMod 2) := by
  have hlow : (r <<< 1).getLsbD 0 = false := by simp
  have hup (k : Fin 15) : (r <<< 1).getLsbD (k.val + 1) = r.getLsbD k.val := by
    rw [BitVec.getLsbD_shiftLeft, decide_eq_true (by omega), decide_eq_false (by omega)]
    rfl
  unfold parity
  rw [Fin.sum_univ_castSucc, Fin.sum_univ_succ (n := 15), BitVec.msb_eq_getLsbD_last]
  simp only [Fin.val_zero, Fin.val_succ, Fin.val_castSucc, Fin.val_last, hlow, hup]
  simp

/-- The generator has an even number of terms, so multiplying by `x` keeps the parity. -/
theorem parity_crcShift (r : BitVec 16) : parity (crcShift r) = parity r := by
  have hfeedback : ∀ b : Bool, parity (crcFeedback b) = (b.toNat : ZMod 2) := by decide
  rw [crcShift_eq, parity_xor, hfeedback, ← parity_shiftLeft_one]

/-- Every power of `x` has odd parity. -/
theorem parity_crcPow (n : Nat) : parity (crcPow n) = 1 := by
  induction n with
  | zero => decide
  | succ n ih => rw [crcPow, Function.iterate_succ_apply', parity_crcShift]; exact ih

/-- The generator has the term 1, so multiplying by `x` can be undone. -/
theorem crcShift_injective : Function.Injective crcShift := by
  intro r d h
  have hlow (r : BitVec 16) : (crcShift r).getLsbD 0 = r.msb := by
    have hfeedback : ∀ b : Bool, (crcFeedback b).getLsbD 0 = b := by decide
    rw [crcShift_eq, BitVec.getLsbD_xor, hfeedback]
    simp
  have hmsb : r.msb = d.msb := by rw [← hlow, h, hlow]
  have hrest : r <<< 1 = d <<< 1 := by
    rw [crcShift_eq, crcShift_eq, hmsb] at h
    exact (BitVec.xor_left_inj _).1 h
  rw [BitVec.msb_eq_decide, BitVec.msb_eq_decide, decide_eq_decide] at hmsb
  bv_omega

/-- `x` has an order above 95. -/
theorem crcPow_ne_one : ∀ n : Fin 96, n.val ≠ 0 → crcPow n.val ≠ 1#16 := by decide +kernel

/-- The powers of `x` at the 96 bits of a Q channel are distinct. -/
theorem crcPow_inj {m n : Nat} (hm : m < 96) (hn : n < 96) (h : crcPow m = crcPow n) : m = n := by
  wlog hle : m ≤ n generalizing m n
  · exact (this hn hm h.symm (by omega)).symm
  by_contra hne
  have hsplit : crcPow n = crcShift^[m] (crcPow (n - m)) := by
    rw [crcShift_iterate_crcPow, Nat.add_sub_cancel' hle]
  have hone : crcPow (n - m) = 1#16 := crcShift_injective.iterate m (hsplit.symm.trans h.symm)
  exact crcPow_ne_one ⟨n - m, by omega⟩ (by omega : n - m ≠ 0) hone

/-! ### The syndrome of a Q channel (R473, R486) -/

/-- The difference of the computed and the received CRC. -/
def syndrome (init : BitVec 16) (q : QChannel) : BitVec 16 := crc init (q.toList.take 10) ^^^ (q[10] ++ q[11])

theorem crcOK_iff {init : BitVec 16} {q : QChannel} : crcOK init q = true ↔ syndrome init q = 0#16 := by
  rw [crcOK, beq_iff_eq]
  exact BitVec.xor_eq_zero_iff.symm

/-- A CRC byte with one bit set is a power of `x` in the CRC word. -/
theorem crcByte_unit : ∀ j : Fin 8,
    (0x80#8 >>> j.val ++ 0x00#8 : BitVec 16) = crcPow (15 - j.val) ∧
      (0x00#8 ++ 0x80#8 >>> j.val : BitVec 16) = crcPow (7 - j.val) := by
  decide +kernel

/-- Flipping a bit of a byte of the CRC word adds the power of `x` at that bit. -/
theorem crcWord_flipQBit (q : QChannel) {i : Fin 96} (hi : 80 ≤ i.val) :
    ((flipQBit q i)[10] ++ (flipQBit q i)[11] : BitVec 16) = (q[10] ++ q[11]) ^^^ crcPow (95 - i.val) := by
  obtain ⟨hhigh, hlow⟩ := crcByte_unit ⟨i.val % 8, Nat.mod_lt _ (by decide)⟩
  rcases (by omega : i.val / 8 = 10 ∨ i.val / 8 = 11) with hk | hk
  · rw [show 95 - i.val = 15 - i.val % 8 by omega, ← hhigh, BitVec.xor_append, BitVec.xor_zero]
    simp only [flipQBit, hk, Vector.getElem_set_self, Vector.getElem_set_ne _ _ (by decide : 10 ≠ 11)]
  · rw [show 95 - i.val = 7 - i.val % 8 by omega, ← hlow, BitVec.xor_append, BitVec.xor_zero]
    simp only [flipQBit, hk, Vector.getElem_set_self, Vector.getElem_set_ne _ _ (by decide : 11 ≠ 10)]

/-- Flipping bit `i` adds `x ^ (95 - i)` to the syndrome. -/
theorem syndrome_flipQBit (init : BitVec 16) (q : QChannel) (i : Fin 96) :
    syndrome init (flipQBit q i) = syndrome init q ^^^ crcPow (95 - i.val) := by
  have htake : (flipQBit q i).toList.take 10 =
      (q.toList.take 10).set (i.val / 8) (q[i.val / 8] ^^^ (0x80#8 >>> (i.val % 8))) := by
    rw [flipQBit, Vector.toList_set, List.take_set]
  have hlen : (q.toList.take 10).length = 10 := by simp
  unfold syndrome
  rcases Nat.lt_or_ge i.val 80 with hi | hi
  · have hk : i.val / 8 < (q.toList.take 10).length := by omega
    have hbyte : q[i.val / 8] = (q.toList.take 10)[i.val / 8] := by simp
    have h10 : (flipQBit q i)[10] = q[10] := Vector.getElem_set_ne _ _ (by omega)
    have h11 : (flipQBit q i)[11] = q[11] := Vector.getElem_set_ne _ _ (by omega)
    rw [htake, hbyte, crc_set_flip init _ hk (Nat.mod_lt _ (by decide)), h10, h11, hlen,
      show 8 * (10 - 1 - i.val / 8) + (23 - i.val % 8) = 95 - i.val by omega]
    ac_rfl
  · rw [htake, List.set_eq_of_length_le (by omega), crcWord_flipQBit q hi, BitVec.xor_assoc]

/-! ### Flips of a matching Q channel (R486) -/

theorem flipQBit_flipQBit (q : QChannel) (i : Fin 96) : flipQBit (flipQBit q i) i = q := by
  simp [flipQBit]

section

variable {init : BitVec 16} {q : QChannel} (h : crcOK init q = true)
include h

/-- One flip spoils the CRC: a power of `x` has odd parity. -/
theorem crcOK_flip_one (i : Fin 96) : crcOK init (flipQBit q i) = false := by
  rw [Bool.eq_false_iff, ne_eq, crcOK_iff, syndrome_flipQBit, crcOK_iff.1 h]
  intro h0
  have := congrArg parity h0
  rw [parity_xor, parity_crcPow] at this
  exact absurd this (by decide)

/-- Two flips spoil the CRC unless the second undoes the first: the powers of `x` below its order are distinct. -/
theorem crcOK_flip_two (i j : Fin 96) : crcOK init (flipQBit (flipQBit q i) j) = decide (j = i) := by
  rw [Bool.eq_iff_iff, crcOK_iff, syndrome_flipQBit, syndrome_flipQBit, crcOK_iff.1 h, decide_eq_true_eq,
    BitVec.zero_xor, BitVec.xor_eq_zero_iff]
  constructor
  · intro hpow
    have := crcPow_inj (by omega) (by omega) hpow
    exact Fin.ext (by omega)
  · rintro rfl
    rfl

/-- Three flips spoil the CRC: a sum of three powers of `x` has odd parity. -/
theorem crcOK_flip_three (i j k : Fin 96) : crcOK init (flipQBit (flipQBit (flipQBit q i) j) k) = false := by
  rw [Bool.eq_false_iff, ne_eq, crcOK_iff]
  simp only [syndrome_flipQBit, crcOK_iff.1 h]
  intro h0
  have := congrArg parity h0
  simp only [parity_xor, parity_crcPow] at this
  exact absurd this (by decide)

/-! ### Check and repair (R474, R475) -/

theorem checkAndRepair_of_crcOK : checkAndRepair init q = .good q false := if_pos h

/-- A flip of one of the first 80 bits is the only repair (R486 a). -/
theorem checkAndRepair_flip_data {i : Fin 96} (hi : i.val < 80) :
    checkAndRepair init (flipQBit q i) = .good q true := by
  have hrepair : repairBit init (flipQBit q i) = some i := by
    have honly (j : Fin 96) : (decide (j.val < 80) && crcOK init (flipQBit (flipQBit q i) j)) = decide (j = i) := by
      rw [crcOK_flip_two h, ← Bool.decide_and, decide_eq_decide]
      exact ⟨And.right, fun hj => ⟨hj ▸ hi, hj⟩⟩
    rw [repairBit, List.find?_congr fun j _ => honly j, List.find?_eq_some_iff_getElem]
    refine ⟨by simp, i.val, by simp, by simp, fun j hj => ?_⟩
    simp only [List.getElem_finRange, Bool.not_eq_true', decide_eq_false_iff_not]
    exact fun e => absurd (congrArg Fin.val e) (Nat.ne_of_lt hj)
  simp only [checkAndRepair, crcOK_flip_one h, hrepair, flipQBit_flipQBit]
  rfl

omit h in
/-- A Q channel that no flip of its first 80 bits makes match is left (R475). -/
theorem checkAndRepair_eq_bad (hq : crcOK init q = false)
    (hflip : ∀ j : Fin 96, j.val < 80 → crcOK init (flipQBit q j) = false) : checkAndRepair init q = .bad := by
  have hrepair : repairBit init q = none := by
    rw [repairBit, List.find?_eq_none]
    intro j _
    rw [Bool.and_eq_true, decide_eq_true_eq]
    rintro ⟨hj, hok⟩
    rw [hflip j hj] at hok
    cases hok
  simp only [checkAndRepair, hq, hrepair]
  rfl

/-- A flip of a CRC bit is not repaired (R486 b). -/
theorem checkAndRepair_flip_crc {i : Fin 96} (hi : 80 ≤ i.val) : checkAndRepair init (flipQBit q i) = .bad := by
  refine checkAndRepair_eq_bad (crcOK_flip_one h i) fun j hj => ?_
  rw [crcOK_flip_two h, decide_eq_false_iff_not]
  rintro rfl
  omega

/-- Two flips are not repaired (R486 c). -/
theorem checkAndRepair_flip_two {i j : Fin 96} (hij : i ≠ j) :
    checkAndRepair init (flipQBit (flipQBit q i) j) = .bad := by
  refine checkAndRepair_eq_bad ?_ fun k _ => crcOK_flip_three h i j k
  rw [crcOK_flip_two h, decide_eq_false_iff_not]
  exact hij.symm

end

/-! ### The subcode decoder by what the check answers (R470) -/

/-- Without a match the record is the invalid one (R475, R484). -/
theorem fromData_of_bad {init : BitVec 16} {sub : List Byte} (cnt : Counters)
    (h : checkAndRepair init (assembleQ sub) = .bad) :
    fromData init sub cnt = .ok (bump .qCrcFail 1 cnt) (invalidMeta (pFlagOf sub)) := by
  simp only [fromData, h, checkCounter]

/-- A match of mode 3 raises the halt, and the check is counted (R474, R475, R479). -/
theorem fromData_of_mode3 {init : BitVec 16} {sub : List Byte} {q : QChannel} {repaired : Bool} (cnt : Counters)
    (h : checkAndRepair init (assembleQ sub) = .good q repaired) (hq : q[0].toNat % 16 = 3) :
    fromData init sub cnt =
      .fatal (bump (if repaired = true then .qRepaired else .qCrcOk) 1 cnt) ⟨.unsupportedQMode3, 0, 0⟩ := by
  simp only [fromData, h, decodeQ_eq_mode3.2 hq]
  cases repaired <;> rfl

/-- A match is counted, whatever its fields are (R474, R475). -/
theorem cntGet_fromData_of_good {init : BitVec 16} {sub : List Byte} {q : QChannel} {repaired : Bool}
    (cnt : Counters) (h : checkAndRepair init (assembleQ sub) = .good q repaired) {k : Counter}
    (hk : k ≠ .qRejected) :
    cntGet k (fromData init sub cnt).state = cntGet k (bump (checkCounter (.good q repaired)) 1 cnt) := by
  simp only [fromData, h]
  cases decodeQ q (pFlagOf sub) repaired with
  | record m => rfl
  | rejected => exact cntGet_bump_ne hk 1 _
  | mode3 => rfl

/-- Settles O37: a flip of bit `i` adds `x ^ (95 - i)` to the syndrome, and no sum of one, two or three of these powers
is 0. -/
theorem singleBitRepairIsExact : Obligations.SingleBitRepairIsExact := by
  intro init q0 h
  have hgood := checkAndRepair_of_crcOK h
  refine ⟨hgood, fun sub cnt hsub => ?_, fun i => checkAndRepair_flip_data h, fun i hi sub cnt hsub => ?_,
    fun i j hij sub cnt hsub => ?_⟩
  · have hcount : cntGet .qCrcOk (fromData init sub cnt).state = satAdd (cntGet .qCrcOk cnt) 1 := by
      rw [cntGet_fromData_of_good cnt (hsub ▸ hgood) (by decide), checkCounter, cntGet_bump_self]
    exact ⟨fun _ _ hok => Flow.state_of_ok hok ▸ hcount, fun _ _ hfatal => Flow.state_of_fatal hfatal ▸ hcount⟩
  · exact fromData_of_bad cnt (hsub ▸ checkAndRepair_flip_crc h hi)
  · exact fromData_of_bad cnt (hsub ▸ checkAndRepair_flip_two h hij)

end Sys2Proof.Machine
end

section
/-! The fields of a Q channel: the record of each mode, and the halt of mode 3 (R476 to R485). -/

namespace Sys2Proof.Machine

/-! ### Modes 1 and 4 (R477) -/

/-- Are track number and times of a mode 1 or 4 channel plausible (R477, R485)? -/
abbrev HasTimes (q : QChannel) : Prop :=
  (isBcd q[1] ∨ q[1] = 0xAA#8) ∧ isTime q[3] q[4] q[5] ∧ (q[1] = 0x00#8 ∨ isTime q[7] q[8] q[9])

/-- Are digits and frame remainder of a mode 2 channel decimal (R478)? -/
abbrev HasDigits (q : QChannel) : Prop :=
  (∀ k : Fin 6, isBcd q[k.val + 1]) ∧ q[7].toNat / 16 ≤ 9 ∧ isBcd q[9] ∧ bcdValue q[9] < 75

/-- The track number by validity and value (R477). -/
theorem trackOf_eq (tno : Byte) :
    trackOf tno =
      if isBcd tno ∨ tno = 0xAA#8 then some (if tno = 0xAA#8 then 170#8 else BitVec.ofNat 8 (bcdValue tno))
      else none := by
  unfold trackOf
  rw [bcd_eq]
  by_cases hout : tno = 0xAA#8
  · simp [hout]
  · by_cases hb : isBcd tno = true <;> simp [hout, hb]

theorem sectionTypeOf_eq_leadIn {tno : Byte} : sectionTypeOf tno = .leadIn ↔ tno = 0x00#8 := by
  unfold sectionTypeOf
  split
  · simp_all
  · split <;> simp_all

/-- The absolute time, in the lead-in the running time (R485). -/
theorem absTimeOf_eq (q : QChannel) (rel : Nat) :
    absTimeOf q rel = if q[1] = 0x00#8 then some rel else bcdTime q[7] q[8] q[9] := by
  simp only [absTimeOf, sectionTypeOf_eq_leadIn]

/-- Q-mode 1 and 4 decode by plausibility and record (R477). -/
theorem decodeMode14_eq (mode : QMode) (q : QChannel) (p repaired : Bool) :
    decodeMode14 mode q p repaired = if HasTimes q then some (timedRecord q mode p repaired) else none := by
  unfold decodeMode14
  rw [trackOf_eq, bcdTime_eq]
  simp only [absTimeOf_eq, bcdTime_eq]
  by_cases htrack : isBcd q[1] ∨ q[1] = 0xAA#8
  · rw [if_pos htrack]
    by_cases hrel : isTime q[3] q[4] q[5] = true
    · rw [if_pos hrel]
      by_cases hin : q[1] = 0x00#8
      · rw [if_pos (⟨htrack, hrel, .inl hin⟩ : HasTimes q)]
        simp [hin, timedRecord, timeValue, sectionTypeOf, withControlFlags, invalidMeta]
      · by_cases habs : isTime q[7] q[8] q[9] = true
        · rw [if_pos (⟨htrack, hrel, .inr habs⟩ : HasTimes q)]
          simp [hin, habs, timedRecord, timeValue, sectionTypeOf, withControlFlags, invalidMeta]
        · simp [hin, habs]
    · simp [hrel]
  · simp [htrack]

/-! ### Mode 2 (R478) -/

/-- Widening an append moves its high part up. -/
theorem setWidth_append_eq_or {m n : Nat} (w : Nat) (x : BitVec m) (y : BitVec n) :
    (x ++ y).setWidth w = x.setWidth w <<< n ||| y.setWidth w := by
  apply BitVec.eq_of_getLsbD_eq
  intro i hi
  rw [BitVec.getLsbD_setWidth, BitVec.getLsbD_append, BitVec.getLsbD_or, BitVec.getLsbD_shiftLeft,
    BitVec.getLsbD_setWidth, BitVec.getLsbD_setWidth]
  by_cases hin : i < n
  · simp [hi, hin]
  · simp [hi, hin, BitVec.getLsbD_of_ge y i (by omega), show i - n < w by omega]

/-- Widening the high digit of a byte. -/
theorem setWidth_highDigit (b : Byte) : (b.extractLsb' 4 4).setWidth 52 = b.setWidth 52 >>> 4 := by
  apply BitVec.eq_of_toNat_eq
  have := b.isLt
  rw [BitVec.toNat_setWidth, BitVec.extractLsb'_toNat, BitVec.toNat_ushiftRight, BitVec.toNat_setWidth,
    Nat.shiftRight_eq_div_pow, Nat.shiftRight_eq_div_pow]
  omega

/-- The catalogue byte by byte at its place (R478). -/
theorem catalogueOf_eq (q : QChannel) : catalogueOf q =
    q[1].setWidth 52 <<< 44 ||| q[2].setWidth 52 <<< 36 ||| q[3].setWidth 52 <<< 28 ||| q[4].setWidth 52 <<< 20 |||
      q[5].setWidth 52 <<< 12 ||| q[6].setWidth 52 <<< 4 ||| q[7].setWidth 52 >>> 4 := by
  rw [← BitVec.setWidth_eq (catalogueOf q), catalogueOf]
  simp only [setWidth_append_eq_or, setWidth_highDigit, BitVec.shiftLeft_or_distrib, ← BitVec.shiftLeft_add]

theorem catalogueOK_iff (q : QChannel) :
    catalogueOK q = true ↔ (∀ k : Fin 6, isBcd q[k.val + 1]) ∧ q[7].toNat / 16 ≤ 9 := by
  simp [catalogueOK, bcd_eq, Fin.forall_fin_succ]

/-- The frame remainder by validity and value (R478). -/
theorem remainderOf_eq (q : QChannel) :
    remainderOf q = if isBcd q[9] ∧ bcdValue q[9] < 75 then some (bcdValue q[9]) else none := by
  rw [remainderOf, bcd_eq]
  by_cases hb : isBcd q[9] = true <;> simp [hb, Option.filter]

/-- Q-mode 2 decode by its digits and record (R478). -/
theorem decodeMode2_eq (q : QChannel) (p repaired : Bool) :
    decodeMode2 q p repaired = if HasDigits q then some (catalogueRecord q p repaired) else none := by
  unfold decodeMode2
  rw [remainderOf_eq]
  simp only [catalogueOK_iff]
  by_cases hrem : isBcd q[9] ∧ bcdValue q[9] < 75
  · by_cases hdigits : (∀ k : Fin 6, isBcd q[k.val + 1]) ∧ q[7].toNat / 16 ≤ 9
    · have hall : HasDigits q := ⟨hdigits.1, hdigits.2, hrem⟩
      rw [if_pos hrem, if_pos hall]
      simp [catalogueRecord, catalogueOf_eq, hdigits, withControlFlags, invalidMeta]
    · have hall : ¬ HasDigits q := fun ⟨hbcd, hlast, _⟩ => hdigits ⟨hbcd, hlast⟩
      rw [if_pos hrem, if_neg hall]
      exact if_neg hdigits
  · have hall : ¬ HasDigits q := fun ⟨_, _, h⟩ => hrem h
    rw [if_neg hrem, if_neg hall]
    rfl

/-! ### The dispatch and its records (R476) -/

theorem recordOrRejected_ite (P : Prop) [Decidable P] (m : SectionMeta) :
    recordOrRejected (if P then some m else none) = if P then .record m else .rejected := by
  split <;> rfl

/-- The mode dispatch by record (R476). -/
theorem decodeQ_eq (q : QChannel) (p repaired : Bool) :
    decodeQ q p repaired =
      if q[0].toNat % 16 = 1 ∧ HasTimes q then .record (timedRecord q .mode1 p repaired)
      else if q[0].toNat % 16 = 4 ∧ HasTimes q then .record (timedRecord q .mode4 p repaired)
      else if q[0].toNat % 16 = 2 ∧ HasDigits q then .record (catalogueRecord q p repaired)
      else if q[0].toNat % 16 = 3 then .mode3
      else .rejected := by
  unfold decodeQ
  rw [decodeMode14_eq, decodeMode14_eq, decodeMode2_eq, recordOrRejected_ite, recordOrRejected_ite,
    recordOrRejected_ite]
  split
  · next h => simp [h]
  · next h => simp [h]
  · next h => simp [h]
  · next h => simp [h]
  · next h1 h2 h3 h4 => rw [if_neg (h1 ·.1), if_neg (h4 ·.1), if_neg (h2 ·.1), if_neg h3]

/-- Is the record valid, of a Q-mode, with the flags given, and are its times and track number in their ranges (R11,
R160)? -/
abbrev IsPlausible (p repaired : Bool) (m : SectionMeta) : Prop :=
  m.isValid = true ∧ m.isRepaired = repaired ∧ m.pFlag = p ∧ m.qMode ≠ .none ∧
  (0 ≤ m.absoluteTime.toInt ∧ m.absoluteTime.toInt ≤ 449999) ∧
  (0 ≤ m.relativeTime.toInt ∧ m.relativeTime.toInt ≤ 449999) ∧
  (m.trackNumber.toNat ≤ 99 ∨ m.trackNumber = 170#8)

/-- The value of a valid BCD byte has two digits. -/
theorem bcdValue_le {b : Byte} (h : isBcd b = true) : bcdValue b ≤ 99 :=
  bcd_le ((bcd_eq b).trans (if_pos h))

/-- A count of frames up to 99:59:74 stored as a time. -/
theorem toInt_ofNat_range {n : Nat} (h : n ≤ 449999) :
    0 ≤ (BitVec.ofNat 32 n).toInt ∧ (BitVec.ofNat 32 n).toInt ≤ 449999 := by
  have hval : (BitVec.ofNat 32 n).toNat = n := BitVec.toNat_ofNat .. ▸ Nat.mod_eq_of_lt (by omega)
  rw [BitVec.toInt_eq_toNat_of_lt (by omega)]
  omega

theorem timeValue_range {m s f : Byte} (h : isTime m s f = true) :
    0 ≤ (timeValue m s f).toInt ∧ (timeValue m s f).toInt ≤ 449999 :=
  toInt_ofNat_range (bcdTime_le ((bcdTime_eq m s f).trans (if_pos h)))

/-- The record of plausible times: the lead-in needs no second time, the lead-out no BCD track. -/
theorem timedRecord_isPlausible {q : QChannel} {mode : QMode} (hmode : mode ≠ .none) (p repaired : Bool)
    (h : HasTimes q) : IsPlausible p repaired (timedRecord q mode p repaired) := by
  obtain ⟨htrack, hrel, habs⟩ := h
  refine ⟨rfl, rfl, rfl, hmode, ?_, timeValue_range hrel, ?_⟩
  · simp only [timedRecord]
    split
    · exact timeValue_range hrel
    · next hin => exact timeValue_range (habs.resolve_left hin)
  · simp only [timedRecord]
    split
    · exact .inr rfl
    · next hout =>
      have := bcdValue_le (htrack.resolve_right hout)
      rw [BitVec.toNat_ofNat]
      omega

/-- The record of decimal digits. -/
theorem catalogueRecord_isPlausible {q : QChannel} (p repaired : Bool) (h : HasDigits q) :
    IsPlausible p repaired (catalogueRecord q p repaired) := by
  obtain ⟨-, -, -, hrem⟩ := h
  exact ⟨rfl, rfl, rfl, nofun, toInt_ofNat_range (by omega), toInt_ofNat_range (n := 0) (by decide),
    .inl (Nat.zero_le 99)⟩

/-- Settles O38, record by record of the dispatch. -/
theorem decodedRecordsHoldTheirFields : Obligations.DecodedRecordsHoldTheirFields := by
  intro q p repaired
  refine ⟨decodeQ_eq q p repaired, fun m hm => ?_⟩
  rw [decodeQ_eq] at hm
  split at hm
  · next h =>
    cases hm
    exact timedRecord_isPlausible (mode := .mode1) nofun p repaired h.2
  split at hm
  · next h =>
    cases hm
    exact timedRecord_isPlausible (mode := .mode4) nofun p repaired h.2
  split at hm
  · next h =>
    cases hm
    exact catalogueRecord_isPlausible p repaired h.2
  split at hm <;> cases hm

/-! ### Q-mode 3 (R479) -/

/-- Settles O39: the halt is the subcode decoder's, before anything of stage 3 is written. -/
theorem qModeThreeHaltsTheBlock : Obligations.QModeThreeHaltsTheBlock := by
  intro c frames q repaired rest s hcheck hmode
  have hfinish : finishThen c [frames] rest (s.f3, s.cnt) =
      .fatal (s.f3, bump (if repaired = true then .qRepaired else .qCrcOk) 1 s.cnt) ⟨.unsupportedQMode3, 0, 0⟩ := by
    simp only [finishThen, finishAll, finish, fromData_of_mode3 s.cnt hcheck hmode]
  rw [hfinish]
  rfl

end Sys2Proof.Machine
end

section
/-! The host commands: the register map and its writers, pops and RESET, and what the fatal halt leaves of every
instruction (R100, R170, R530 to R538, R577, R578). -/

namespace Sys2Proof.Machine

/-! ### Reading the register map (R103, R170, R532) -/

/-- CONFIG reads as the watermark, its high half 0 (R34). -/
theorem readRegister_config (s : State) : readRegister 0x008#12 s = 0#16 ++ s.watermark :=
  BitVec.setWidth_eq_append (x := s.watermark) (w := 32) (by decide)

/-- Past OUT_LEVEL a read is of the counters, by their numbers (R175), or of nothing. -/
theorem readRegister_past_outLevel {addr : Addr} (h : 0x01C ≤ addr.toNat) (s : State) :
    readRegister addr s = if 0x100 ≤ addr.toNat then s.cnt[(addr.toNat - 0x100) / 4]?.getD 0 else 0 := by
  have hne : ∀ named : Addr, named.toNat < 0x01C → addr ≠ named := by
    rintro named hnamed rfl
    omega
  rw [readRegister, if_neg (hne _ (by decide)), if_neg (hne _ (by decide)), if_neg (hne _ (by decide)),
    if_neg (hne _ (by decide)), if_neg (hne _ (by decide))]

/-- The address of a counter fits 12 bits. -/
theorem toNat_counterAddr (k : Counter) :
    (BitVec.ofNat 12 (0x100 + 4 * k.index.val)).toNat = 0x100 + 4 * k.index.val := by
  rw [BitVec.toNat_ofNat]
  omega

/-- The register of a counter reads as its value. -/
theorem readRegister_counter (k : Counter) (s : State) :
    readRegister (BitVec.ofNat 12 (0x100 + 4 * k.index.val)) s = cntGet k s.cnt := by
  have haddr := toNat_counterAddr k
  rw [readRegister_past_outLevel (by omega), if_pos (by omega), haddr, Nat.add_sub_cancel_left,
    Nat.mul_div_cancel_left _ (by decide)]
  simp [cntGet]

/-- Before and after the counters nothing is mapped (R103). -/
theorem readRegister_reserved {addr : Addr}
    (h : 0x01C ≤ addr.toNat ∧ addr.toNat < 0x100 ∨ 0x1B4 ≤ addr.toNat) (s : State) : readRegister addr s = 0 := by
  rw [readRegister_past_outLevel (by omega)]
  split
  · rw [Vector.getElem?_eq_none (by omega)]
    rfl
  · rfl

/-- Settles O7, register by register of the map. -/
theorem regReadAnswersTheRegisterMap : Obligations.RegReadAnswersTheRegisterMap := by
  intro s
  refine ⟨rfl, rfl, ?_, rfl, rfl, rfl, rfl, fun k => ?_, fun addr haligned hreserved => ?_⟩
  · rw [exec_regRead_of_aligned rfl, readRegister_config]
  · rw [exec_regRead_of_aligned (by rw [toNat_counterAddr]; omega), readRegister_counter]
  · rw [exec_regRead_of_aligned haligned, readRegister_reserved hreserved]

/-! ### Writing the register map (R103, R533, R538) -/

/-- A write to CTRL is the command of its low bits, RESET before FLUSH (R538). -/
theorem exec_regWrite_control (v : Word) (s : State) :
    exec (.regWrite 0x000#12 v) s =
      if v.getLsbD 1 = true then exec (.reset (v.extractLsb' 2 30) (v.getLsbD 0)) s
      else if v.getLsbD 0 = true then exec (.flush (v.extractLsb' 2 30)) s
      else .next s := by
  rw [exec_regWrite_of_aligned rfl, writeRegister, if_pos rfl, writeControl]
  split
  · rfl
  split <;> rfl

/-- A write to CONFIG sets the watermark to its low half (R34, R533). -/
theorem exec_regWrite_config (v : Word) (s : State) :
    exec (.regWrite 0x008#12 v) s = .next { s with watermark := v.extractLsb' 0 16 } := by
  rw [← BitVec.setWidth_eq_extractLsb' (by decide)]
  rfl

/-- A write to an address that is read-only or names no register changes nothing (R103). -/
theorem writeRegister_readOnly (c : Params) {addr : Addr} (hctrl : addr ≠ 0x000#12) (hconfig : addr ≠ 0x008#12)
    (hdata : addr ≠ 0x014#12) (v : Word) (s : State) : writeRegister c addr v s = s := by
  rw [writeRegister, if_neg hctrl, if_neg hconfig, if_neg hdata]

/-- Settles O8, address by address. -/
theorem regWriteActsByAddress : Obligations.RegWriteActsByAddress := fun v s =>
  ⟨exec_regWrite_config v s, rfl, exec_regWrite_control v s, fun addr haligned hctrl hconfig hdata => by
    rw [exec_regWrite_of_aligned haligned, writeRegister_readOnly _ hctrl hconfig hdata]⟩

/-! ### RESET and the pops (R85, R535 to R537) -/

/-- Settles O10: the reset state has the values of R85. -/
theorem resetLeavesTheResetValues : Obligations.ResetLeavesTheResetValues := fun hi bit0 s =>
  ⟨resetMachine s, rfl, rfl, rfl, rfl, rfl, rfl, rfl, rfl, rfl, rfl, rfl, rfl, rfl, rfl,
    fun p => by simp [State.reset, DelaySet.fresh, dl1Len],
    fun p => by simp [State.reset, DelaySet.fresh, dlMLen],
    fun o => by simp [State.reset, DelaySet.fresh, dl2Len],
    fun k => by simp [State.reset, cntGet]⟩

section

variable {s : State}

/-- A pop of an empty queue answers Empty. -/
theorem exec_popF2_of_empty (h : s.f2Out = []) : exec .popF2 s = .next { s with reply := .empty } := by
  simp only [exec, execPopF2, h]

/-- A pop takes the first section of the queue, the one appended first. -/
theorem exec_popF2_of_oldest {sec : F2Section} {rest : List F2Section} (h : s.f2Out = sec :: rest) :
    exec .popF2 s = .next { s with f2Out := rest, reply := .record (serializeF2 sec) } := by
  simp only [exec, execPopF2, h]

theorem exec_popD24_of_empty (h : s.d24Out = []) : exec .popD24 s = .next { s with reply := .empty } := by
  simp only [exec, execPopD24, h]

theorem exec_popD24_of_oldest {sec : F1Section} {rest : List F1Section} (h : s.d24Out = sec :: rest) :
    exec .popD24 s = .next { s with d24Out := rest, reply := .record (serializeD24 sec) } := by
  simp only [exec, execPopD24, h]

end

/-- Settles O11, by what the queue holds. -/
theorem popsTakeTheOldestRecord : Obligations.PopsTakeTheOldestRecord := by
  intro s
  constructor
  · split
    · next h => exact exec_popF2_of_empty h
    · next h => exact exec_popF2_of_oldest h
  · split
    · next h => exact exec_popD24_of_empty h
    · next h => exact exec_popD24_of_oldest h

/-! ### Tokens by their bytes (R130, R530) -/

/-- The row that is encoded by one token byte pushes that byte. -/
theorem tokenOf_of_encode {i : Instr} {t : Byte} (h : encode i = [.token t]) : tokenOf i = some t := by
  cases i <;> cases h <;> rfl

/-- Settles O14: the row of a token byte pushes that byte. -/
theorem pushTvRunsTheRowOfItsLowByte : Obligations.PushTvRunsTheRowOfItsLowByte := by
  intro v s
  obtain ⟨-, hencode⟩ := tokenInstr_row (v.extractLsb' 0 8)
  rw [exec_of_tokenOf (tokenOf_of_encode hencode), ← BitVec.setWidth_eq_extractLsb' (by decide)]
  rfl

/-! ### While the block is halted (R531, R575, R577, R578) -/

section

variable {s : State} (h : s.fatal = true)
include h

/-- A token is rejected, and counted so. -/
theorem pushToken_of_halted (c : Params) (t : Byte) :
    pushToken c t s = { s with cnt := bump .hostTokensRejected 1 s.cnt } := if_pos h

theorem flushAll_of_halted (c : Params) : flushAll c s = s := runAll_of_fatal _ _ h

theorem takeSymbolCode_of_halted (c : Params) (d : EfmCode) : takeSymbolCode c d s = s := if_pos h

end

/-- Settles O15: every row that has a token pushes it. -/
theorem tokensAreRejectedWhileFatal : Obligations.TokensAreRejectedWhileFatal := fun i t s htoken h => by
  rw [exec_of_tokenOf htoken, pushToken_of_halted h]

/-- What the halt leaves of `s` in `s'`: all but the counter of rejected tokens, the watermark, the reply and the output
queues. -/
def HaltKept (s s' : State) : Prop :=
  s' = { s with
    cnt := s'.cnt, watermark := s'.watermark, reply := s'.reply, f2Out := s'.f2Out, d24Out := s'.d24Out } ∧
  ∀ k : Counter, k ≠ .hostTokensRejected → cntGet k s'.cnt = cntGet k s.cnt

theorem HaltKept.refl (s : State) : HaltKept s s := ⟨rfl, fun _ _ => rfl⟩

/-- Rejected tokens are counted, and no other counter changes. -/
theorem HaltKept.rejected (s : State) (n : Nat) :
    HaltKept s { s with cnt := bump .hostTokensRejected n s.cnt } :=
  ⟨rfl, fun _ hk => cntGet_bump_ne hk n s.cnt⟩

section

variable {s : State} (h : s.fatal = true)
include h

/-- A register write other than RESET. -/
theorem writeRegister_haltKept (c : Params) {addr : Addr} {v : Word} (hreset : isReset (.regWrite addr v) = false) :
    HaltKept s (writeRegister c addr v s) := by
  unfold writeRegister
  split
  · next haddr =>
    have hbit : v.getLsbD 1 = false := by simpa [isReset, haddr] using hreset
    rw [writeControl, hbit, flushAll_of_halted h, ite_self]
    exact .refl s
  split
  · exact ⟨rfl, fun _ _ => rfl⟩
  split
  · rw [writeToken, pushToken_of_halted h]
    exact .rejected s 1
  · exact .refl s

/-- Instruction by instruction: tokens are rejected, symbols and FLUSH ignored, and the host's own commands run. -/
theorem exec_haltKept {i : Instr} {s' : State} (hreset : isReset i = false) (he : exec i s = .next s') :
    HaltKept s s' := by
  cases htoken : tokenOf i with
  | some t =>
    rw [exec_of_tokenOf htoken, pushToken_of_halted h] at he
    cases he
    exact .rejected s 1
  | none =>
  cases hcode : rowCode i with
  | some d =>
    rw [exec_of_rowCode hcode, takeSymbolCode_of_halted h] at he
    cases he
    exact .refl s
  | none =>
  cases i with
  | t3 | t4 | t5 | t6 | t7 | t8 | t9 | t10 | t11 | tvZero | tvShort _ | tvLong _ | pushTv _ => cases htoken
  | symSync0 _ | symSync1 _ | symData _ | symInvalid _ => cases hcode
  | reset _ _ => cases hreset
  | sync =>
    cases he
    rw [pushToken_of_halted h, pushToken_of_halted (by exact h), bump_bump]
    exact .rejected s 2
  | flush hi =>
    cases he
    rw [flushAll_of_halted h]
    exact .refl s
  | regRead addr =>
    by_cases haligned : addr.toNat % 4 = 0
    · cases (exec_regRead_of_aligned haligned s).symm.trans he
      exact ⟨rfl, fun _ _ => rfl⟩
    · cases (exec_regRead_of_unaligned haligned s).symm.trans he
  | regWrite addr v =>
    by_cases haligned : addr.toNat % 4 = 0
    · cases (exec_regWrite_of_aligned haligned v s).symm.trans he
      exact writeRegister_haltKept h _ hreset
    · cases (exec_regWrite_of_unaligned haligned v s).symm.trans he
  | popF2 =>
    cases hq : s.f2Out with
    | nil => cases (exec_popF2_of_empty hq).symm.trans he; exact ⟨rfl, fun _ _ => rfl⟩
    | cons sec rest => cases (exec_popF2_of_oldest hq).symm.trans he; exact ⟨rfl, fun _ _ => rfl⟩
  | popD24 =>
    cases hq : s.d24Out with
    | nil => cases (exec_popD24_of_empty hq).symm.trans he; exact ⟨rfl, fun _ _ => rfl⟩
    | cons sec rest => cases (exec_popD24_of_oldest hq).symm.trans he; exact ⟨rfl, fun _ _ => rfl⟩

end

/-- Settles O57: nothing is processed while halted, and a symbol has no other effect than to be processed. -/
theorem fatalStateIsSticky : Obligations.FatalStateIsSticky := by
  intro i s h hreset
  refine ⟨fun s' he => exec_haltKept h hreset he, fun hsymbol => ?_⟩
  have ⟨d, hcode⟩ : ∃ d, rowCode i = some d := by
    obtain ⟨v, rfl | rfl | rfl | rfl⟩ := hsymbol <;> exact ⟨_, rfl⟩
  rw [exec_of_rowCode hcode, takeSymbolCode_of_halted h]

end Sys2Proof.Machine
end

section
/-! FLUSH stage by stage: what stage 1 releases, what stage 3 releases, and what stages 4 and 5 release and forget
(R215, R297, R348, R406, R534). -/

namespace Sys2Proof.Machine

/-! ### The counters of stages 5 and 6 (R390 to R404, R453, R454) -/

/-- The counters that stages 5 and 6 write. -/
def Counter.isDecoder (k : Counter) : Bool :=
  k == .circFramesIn || k == .circLostFrames || k == .c1Ok || k == .c1Fail || k == .c2Ok || k == .c2Fail ||
    k == .d24FramesOut || k == .d24ErrorBytes || k == .d24PaddedBytes

/-- Adding to a counter of stages 5 and 6 leaves the others. -/
theorem cntGet_bump_decoder {j k : Counter} (hk : k.isDecoder = false) (hj : j.isDecoder = true) (n : Nat)
    (cnt : Counters) : cntGet k (bump j n cnt) = cntGet k cnt :=
  cntGet_bump_ne (fun e => by rw [e, hj] at hk; cases hk) n cnt

theorem c1Counter_isDecoder (c : Params) (w : Vector Cell 32) : (c1Counter c w).isDecoder = true := by
  unfold c1Counter
  split <;> rfl

theorem c2Counter_isDecoder (c : Params) (w : Vector Cell 28) : (c2Counter c w).isDecoder = true := by
  unfold c2Counter
  split <;> rfl

section

variable {k : Counter} (hk : k.isDecoder = false)
include hk

theorem cntGet_circTail (c : Params) (c2 : Vector Cell 28) (x : S5) :
    cntGet k (circTail c c2 x).2.2 = cntGet k x.2 := by
  simp only [circTail]
  split
  · rfl
  · exact cntGet_bump_decoder hk rfl 1 _

theorem cntGet_circMiddle (c : Params) (c1 : Vector Cell 32) (x : S5) :
    cntGet k (circMiddle c c1 x).2.2 = cntGet k x.2 := by
  simp only [circMiddle]
  split
  · rw [cntGet_circTail hk, cntGet_bump_decoder hk (c2Counter_isDecoder _ _)]
  · exact cntGet_bump_decoder hk rfl 1 _

theorem cntGet_decodeFrame (c : Params) (frame : F2Frame) (x : S5) :
    cntGet k (decodeFrame c frame x).2.2 = cntGet k x.2 := by
  simp only [decodeFrame]
  split
  · rw [cntGet_circMiddle hk, cntGet_bump_decoder hk (c1Counter_isDecoder _ _)]
  · exact cntGet_bump_decoder hk rfl 1 _

theorem cntGet_decodeFrames (c : Params) (frames : List F2Frame) (x : S5) :
    cntGet k (decodeFrames c frames x).2.2 = cntGet k x.2 := by
  induction frames generalizing x with
  | nil => rfl
  | cons f more ih =>
    simp only [decodeFrames]
    rw [ih, cntGet_decodeFrame hk, cntGet_bump_decoder hk rfl]

theorem cntGet_tally (x : F1Frame) (cnt : Counters) : cntGet k (tally x cnt) = cntGet k cnt := by
  unfold tally
  rw [cntGet_bump_decoder hk rfl, cntGet_bump_decoder hk rfl, cntGet_bump_decoder hk rfl]

theorem cntGet_stage6Take (sec : F1Section) (cnt : Counters) : cntGet k (stage6Take sec cnt).2 = cntGet k cnt := by
  simp only [stage6Take]
  generalize sec.frames.map unswap = frames
  induction frames generalizing cnt with
  | nil => rfl
  | cons y more ih => rw [List.foldl_cons, ih, cntGet_tally hk]

/-- On its way out a section is counted by stage 4 as emitted, and further only by stages 5 and 6 (R331). -/
theorem cntGet_outSection (c : Params) (sec : F2Section) (s : State) :
    cntGet k (outSection c sec s).cnt = cntGet k (bump .f2cSectionsOut 1 s.cnt) :=
  (cntGet_stage6Take hk _ _).trans (cntGet_decodeFrames hk c sec.frames _)

/-- The same for a run of sections. -/
theorem cntGet_runAll_outSection (c : Params) (secs : List F2Section) {s : State} (h : s.fatal = false) :
    cntGet k (runAll (outSection c) secs s).cnt = cntGet k (bump .f2cSectionsOut secs.length s.cnt) := by
  induction secs generalizing s with
  | nil => rw [runAll_nil, List.length_nil, bump_zero]
  | cons sec secs ih =>
    rw [runAll_cons _ _ _ h, ih (by exact h), cntGet_bump, cntGet_outSection hk, ← cntGet_bump, bump_bump,
      List.length_cons, Nat.add_comm]

end

/-! ### Stage 1 (R215) -/

/-- The tokens that are terminal: those left when an open undershoot is given up. -/
theorem flushUndershoot_buf (st : Stage1) (cnt : Counters) :
    (flushUndershoot st cnt).1.buf = if st.state = .handleUndershoot then st.buf.drop st.undJ else st.buf := by
  unfold flushUndershoot
  split <;> simp [*]

/-- Giving up an open undershoot is counted. -/
theorem flushUndershoot_cnt (st : Stage1) (cnt : Counters) :
    (flushUndershoot st cnt).2 =
      if st.state = .handleUndershoot then bump .tvTokensDiscarded st.undJ (bump .tvUndershoots 1 cnt) else cnt := by
  unfold flushUndershoot
  split <;> simp [*]

/-- The terminal tokens follow a sync pattern in either state that holds one. -/
theorem flushUndershoot_state (st : Stage1) (cnt : Counters) :
    (flushUndershoot st cnt).1.state = .expectingSync ↔ st.state = .handleUndershoot ∨ st.state = .expectingSync := by
  unfold flushUndershoot
  split <;> simp [*]

theorem inAcceptWindow_iff {n : Nat} : inAcceptWindow n = true ↔ 551 ≤ n ∧ n ≤ 599 := decide_eq_true_iff

/-- The terminal tokens leave as one frame or are discarded. -/
theorem flushStage1_terminal (c : Params) {s : State} (h : s.fatal = false) :
    TerminalTokens c s (flushStage1 c s) := by
  simp only [TerminalTokens, ← flushUndershoot_buf s.tv s.cnt, ← flushUndershoot_cnt,
    ← flushUndershoot_state s.tv s.cnt, ← inAcceptWindow_iff, flushStage1, stage1Flush]
  split
  · exact runAll_cons _ _ _ h
  · rfl

/-! ### Stage 3 (R297) -/

/-- A flush of stage 3 with anything but 98 accumulated frames discards all it holds. -/
theorem stage3Flush_of_discarded (c : Params) {st : Stage3} (cnt : Counters)
    (h : ¬ (st.state = .expectingSync ∧ st.acc.length = 98)) :
    stage3Flush c (st, cnt) =
      .ok (⟨.expectingInitialSync, [], none, 0, none⟩,
        bump .f3FramesDiscarded (st.acc.length + prevCount st.prev) cnt) [] := by
  rw [stage3Flush, if_neg h, f3Clear, bump_bump]

/-- Finishing a section keeps `f3_prev`, and makes the section of the cells of the frames (R293). -/
theorem finish_ok {c : Params} {frames : List F3Frame} {x y : S3} {sec : F2Section}
    (h : finish c frames x = .ok y sec) :
    y.1.prev = x.1.prev ∧ sec.frames = frames.map fun f => f.cells := by
  cases hm : isMode3Section c frames with
  | true =>
    obtain ⟨cnt, he⟩ := finish_of_mode3 x hm
    cases he.symm.trans h
  | false =>
    obtain ⟨cnt, m, he⟩ := finish_of_not_mode3 x hm
    cases he.symm.trans h
    exact ⟨rfl, rfl⟩

/-- The halt of a section is that of Q-mode 3, and writes nothing of stage 3 (R293, R479). -/
theorem finish_fatal {c : Params} {frames : List F3Frame} {x y : S3} {info : FatalInfo}
    (h : finish c frames x = .fatal y info) : y.1 = x.1 ∧ info = ⟨.unsupportedQMode3, 0, 0⟩ := by
  cases hm : isMode3Section c frames with
  | true =>
    obtain ⟨cnt, he⟩ := finish_of_mode3 x hm
    cases he.symm.trans h
    exact ⟨rfl, rfl⟩
  | false =>
    obtain ⟨cnt, m, he⟩ := finish_of_not_mode3 x hm
    cases he.symm.trans h

/-- A flush of stage 3 with 98 accumulated frames finishes them as a section. -/
theorem stage3Flush_of_finish_ok {c : Params} {st : Stage3} {cnt : Counters} {y : S3} {sec : F2Section}
    (h : st.state = .expectingSync ∧ st.acc.length = 98) (he : finish c st.acc (st, cnt) = .ok y sec) :
    stage3Flush c (st, cnt) =
      .ok (⟨.expectingInitialSync, [], none, 0, none⟩,
        bump .f3FramesDiscarded (prevCount st.prev) (bump .f3SectionsExact 1 y.2)) [sec] := by
  have ⟨hprev, _⟩ := finish_ok he
  rw [stage3Flush, if_pos h]
  simp only [finishThen, finishAll, he, f3Clear, hprev]

/-- Or it raises the halt with them. -/
theorem stage3Flush_of_finish_fatal {c : Params} {st : Stage3} {cnt : Counters} {y : S3} {info : FatalInfo}
    (h : st.state = .expectingSync ∧ st.acc.length = 98) (he : finish c st.acc (st, cnt) = .fatal y info) :
    stage3Flush c (st, cnt) = .fatal y info := by
  rw [stage3Flush, if_pos h]
  simp only [finishThen, finishAll, he]

/-- The terminal frames leave as a section, raise the halt or are discarded. -/
theorem flushStage3_terminal (c : Params) {s : State} (h : s.fatal = false) :
    TerminalSection c s (flushStage3 c s) := by
  simp only [TerminalSection, flushStage3]
  split
  · next hfull =>
    refine ⟨fun x sec he => ?_, fun x info he => ?_⟩
    · obtain ⟨-, hframes⟩ := finish_ok he
      rw [stage3Flush_of_finish_ok hfull he]
      exact ⟨hframes, runAll_cons _ _ _ h⟩
    · rw [stage3Flush_of_finish_fatal hfull he]
      obtain ⟨hst, rfl⟩ := finish_fatal he
      simp only [settleStage3, hst]
      rfl
  · next hpart =>
    rw [stage3Flush_of_discarded c _ hpart]
    rfl

/-- A section on its way through stages 4 to 6 does not touch stage 3. -/
theorem runStage4_f3 (c : Params) (sec : F2Section) (s : State) : (runStage4 c sec s).f3 = s.f3 := by
  unfold runStage4
  cases stage4Take c s.watermark sec (s.f2c, s.cnt) with
  | fatal x info => rfl
  | ok x secs =>
    exact runAll_keeps (P := fun t => t.f3 = s.f3) (G := fun _ => True) (run := outSection c) (fun _ _ _ ht => ht)
      (fun _ _ => trivial) rfl

/-- The later stages leave stage 3 as it handed them its sections. -/
theorem settleStage3_f3 (c : Params) (r : Flow S3 (List F2Section)) (s : State) :
    (settleStage3 c r s).f3 = r.state.1 := by
  cases r with
  | fatal x info => rfl
  | ok x secs =>
    exact runAll_keeps (P := fun t => t.f3 = x.1) (G := fun _ => True)
      (fun sec t _ ht => (runStage4_f3 c sec t).trans ht) (fun _ _ => trivial) rfl

/-- What else the later stages leave of the state that stage 3 handed them. -/
theorem LaterStagesKeep.settleStage3 (c : Params) (r : Flow S3 (List F2Section)) (s : State) :
    LaterStagesKeep { s with f3 := r.state.1, cnt := r.state.2 } (settleStage3 c r s) := by
  cases r with
  | fatal x info => exact { LaterStagesKeep.refl _ with halt := nofun }
  | ok x secs =>
    exact runAll_keeps (G := fun _ => True) (fun sec _ _ ht => ht.runStage4 c sec) (fun _ _ => trivial) (.refl _)

/-- Without the halt stage 3 is in its reset state after its flush. -/
theorem flushStage3_f3 (c : Params) (s : State) (h : (flushStage3 c s).fatal = false) :
    (flushStage3 c s).f3 = ⟨.expectingInitialSync, [], none, 0, none⟩ := by
  refine (settleStage3_f3 c _ s).trans ?_
  by_cases hfull : s.f3.state = .expectingSync ∧ s.f3.acc.length = 98
  · cases he : finish c s.f3.acc (s.f3, s.cnt) with
    | ok y sec => rw [stage3Flush_of_finish_ok hfull he]; rfl
    | fatal y info => rw [flushStage3, stage3Flush_of_finish_fatal hfull he] at h; cases h
  · rw [stage3Flush_of_discarded c _ hfull]; rfl

/-! ### Stages 4 and 5 (R348, R406) -/

/-- The pending sections leave unchanged, the settle run is discarded, and the delay lines are as at reset. -/
theorem flushStage4_terminal (c : Params) {s : State} (h : s.fatal = false) :
    TerminalPending s (flushStage5 (flushStage4 c s)) := by
  have hrunning :
      { s with f2c := (stage4Flush (s.f2c, s.cnt)).1.1, cnt := (stage4Flush (s.f2c, s.cnt)).1.2 }.fatal = false := h
  obtain ⟨ds, circ, cnt, hinfo, he⟩ := runAll_outSection_spec c s.f2c.pending hrunning
  have hcnt : ∀ k : Counter, k.isDecoder = false →
      cntGet k cnt = cntGet k (bump .f2cSectionsOut s.f2c.pending.length (stage4Flush (s.f2c, s.cnt)).1.2) :=
    fun k hk => (congrArg (fun t => cntGet k t.cnt) he).symm.trans (cntGet_runAll_outSection hk c _ hrunning)
  refine ⟨ds, cnt, congrArg flushStage5 he, hinfo, ?_, ?_, ?_⟩
  all_goals
    rw [hcnt _ rfl]
    simp [stage4Flush]

/-! ### FLUSH (R534) -/

section

variable {c : Params} {s : State}

/-- A halt raised by the terminal tokens stops FLUSH. -/
theorem flushAll_of_halt_stage1 (h : s.fatal = false) (h1 : (flushStage1 c s).fatal = true) :
    flushAll c s = flushStage1 c s := by
  rw [flushAll, runAll_cons _ _ _ h, runAll_of_fatal _ _ h1]

/-- A halt raised by the terminal frames stops FLUSH. -/
theorem flushAll_of_halt_stage3 (h : s.fatal = false) (h1 : (flushStage1 c s).fatal = false)
    (h3 : (flushStage3 c (flushStage2 (flushStage1 c s))).fatal = true) :
    flushAll c s = flushStage3 c (flushStage2 (flushStage1 c s)) := by
  rw [flushAll, runAll_cons _ _ _ h, runAll_cons _ _ _ h1, runAll_cons _ _ _ (by exact h1), runAll_of_fatal _ _ h3]

/-- The pending sections raise no halt. -/
theorem flushStage4_fatal (c : Params) {s : State} (h : s.fatal = false) : (flushStage4 c s).fatal = false := by
  obtain ⟨ds, cnt, he, -⟩ := flushStage4_terminal c h
  rw [← flushStage5_fatal, he]
  exact h

/-- Without a halt FLUSH runs to the end. -/
theorem flushAll_of_no_halt (h : s.fatal = false) (h1 : (flushStage1 c s).fatal = false)
    (h3 : (flushStage3 c (flushStage2 (flushStage1 c s))).fatal = false) :
    flushAll c s = flushStage5 (flushStage4 c (flushStage3 c (flushStage2 (flushStage1 c s)))) := by
  rw [flushAll, runAll_cons _ _ _ h, runAll_cons _ _ _ h1, runAll_cons _ _ _ (by exact h1), runAll_cons _ _ _ h3,
    runAll_cons _ _ _ (flushStage4_fatal c h3), runAll_nil]

/-- If FLUSH ends without the halt, none of its stages raised it. -/
theorem running_of_flushAll (ht : (flushAll c s).fatal = false) :
    s.fatal = false ∧ (flushStage1 c s).fatal = false ∧
      (flushStage3 c (flushStage2 (flushStage1 c s))).fatal = false := by
  cases h : s.fatal with
  | true => rw [flushAll_of_halted h, h] at ht; cases ht
  | false =>
    cases h1 : (flushStage1 c s).fatal with
    | true => rw [flushAll_of_halt_stage1 h h1, h1] at ht; cases ht
    | false =>
      cases h3 : (flushStage3 c (flushStage2 (flushStage1 c s))).fatal with
      | true => rw [flushAll_of_halt_stage3 h h1 h3, h3] at ht; cases ht
      | false => exact ⟨rfl, rfl, rfl⟩

/-- Without the halt every stage is in its reset state after FLUSH, and the fatal registers are as before: what one
flush resets, no later one touches. -/
theorem flushAll_resets (ht : (flushAll c s).fatal = false) :
    (flushAll c s).tv = ⟨[], .expectingInitialSync, 0⟩ ∧
      (flushAll c s).f3 = ⟨.expectingInitialSync, [], none, 0, none⟩ ∧
      (flushAll c s).f2c = ⟨.settle, [], none, [], 0⟩ ∧ (flushAll c s).circ = State.reset.circ ∧
      (flushAll c s).sym = none ∧ (flushAll c s).fatalCause = s.fatalCause ∧
      (flushAll c s).fatalExpected = s.fatalExpected ∧ (flushAll c s).fatalActual = s.fatalActual := by
  obtain ⟨h, h1, h3⟩ := running_of_flushAll ht
  have hf3 := flushStage3_f3 c _ h3
  have stage1 := LaterStagesKeep.settleStage1 c (stage1Flush s.tv s.cnt) s
  have stage3 := LaterStagesKeep.settleStage3 c (stage3Flush c ((flushStage1 c s).f3, (flushStage1 c s).cnt))
    (flushStage2 (flushStage1 c s))
  obtain ⟨hcause1, hexpected1, hactual1⟩ := stage1.halt h1
  obtain ⟨hcause3, hexpected3, hactual3⟩ := stage3.halt h3
  obtain ⟨ds, cnt, he, -⟩ := flushStage4_terminal c h3
  rw [flushAll_of_no_halt h h1 h3, he]
  exact ⟨stage3.tv.trans (stage1.tv.trans (stage1Flush_st s.tv s.cnt)), hf3, rfl, rfl, stage3.sym,
    hcause3.trans hcause1, hexpected3.trans hexpected1, hactual3.trans hactual1⟩

end

/-- Settles O58: each stage releases its terminal unit in its turn, up to one that raises the halt. -/
theorem flushReleasesTheTerminalUnits : Obligations.FlushReleasesTheTerminalUnits := fun hi s =>
  ⟨flushAll Config.machine s, rfl, fun h => flushAll_of_halted h _,
    fun h => ⟨_, flushStage1_terminal _ h, flushAll_of_halt_stage1 h,
      fun h1 => ⟨_, flushStage3_terminal _ h1, flushAll_of_halt_stage3 h h1,
        fun h3 => flushAll_of_no_halt h h1 h3 ▸ flushStage4_terminal _ h3⟩⟩,
    flushAll_resets, exec_watermark (i := .flush hi) rfl nofun rfl, exec_reply (i := .flush hi) rfl nofun rfl rfl,
    exec_hostIn (i := .flush hi) rfl⟩

end Sys2Proof.Machine
end
